-- ==== Sys2Proof/Word.lean ====
section
/-! DEFINITION. The word types of the machine: bytes, 16-bit words and addresses (00_scope R6, R8, R9). -/

namespace Sys2Proof

/-- A byte: the unit of memory, and the width of a general register and of PSW (00_scope R6). -/
abbrev Byte := BitVec 8

/-- A 16-bit word: the width of a register pair, of PC and of SP (00_scope R6). -/
abbrev Word := BitVec 16

/-- A 16-bit address, 0000H to FFFFH (20_memory R60). -/
abbrev Addr := BitVec 16

end Sys2Proof
end

