-- ==== Sys2Proof/Syntax.lean ====
section
/-! DEFINITION. The instruction set: one constructor for each of the 227 rows of spec/opcode_table.json
(30_encoding R100, R110), the rows that are a general form with a fixed offset among them (30_encoding R108).
A docstring gives the row's assembler form, its encoding (bit 7 first; s, f: saddr- and sfr-offset; d: data;
a A, l h: low and high byte; j: displacement) and the rule of its meaning. -/

namespace Sys2Proof

/-- The eight 8-bit general registers, R0 to R7 (10_state R20). -/
inductive Reg8 where
  | x | a | c | b | e | d | l | h
  deriving DecidableEq, Repr

/-- The four register pairs, RP0 to RP3 (10_state R23). -/
inductive RegPair where
  | ax | bc | de | hl
  deriving DecidableEq, Repr

/-- The instructions. Arguments: `r` register, `p` register pair, `o` saddr- or sfr-offset, `n` bit number, `d` byte
of data or offset of `[HL+byte]`, `a` 16-bit address, `w` 16-bit immediate, `j` displacement, `f` low 11 bits of a
CALLF target, `t` number of a CALLT table entry, `b` register bank. -/
inductive Instr where
  -- 8-bit data transfer (40)
  /-- `MOV r,#byte`: 10100RRR dddddddd; 40 R141. -/
  | movRImm (r : Reg8) (d : Byte)
  /-- `MOV saddr,#byte`: 00010001 ssssssss dddddddd; 40 R142. -/
  | movSaddrImm (o : Byte) (d : Byte)
  /-- `MOV sfr,#byte`: 00010011 ffffffff dddddddd; 40 R143. -/
  | movSfrImm (o : Byte) (d : Byte)
  /-- `MOV A,r`, r not A: 01100RRR; 40 R141. -/
  | movAR (r : Reg8)
  /-- `MOV r,A`, r not A: 01110RRR; 40 R141. -/
  | movRA (r : Reg8)
  /-- `MOV A,saddr`: 11110000 ssssssss; 40 R142. -/
  | movASaddr (o : Byte)
  /-- `MOV saddr,A`: 11110010 ssssssss; 40 R142. -/
  | movSaddrA (o : Byte)
  /-- `MOV A,sfr`: 11110100 ffffffff; 40 R143. -/
  | movASfr (o : Byte)
  /-- `MOV sfr,A`: 11110110 ffffffff; 40 R143. -/
  | movSfrA (o : Byte)
  /-- `MOV A,!addr16`: 10001110 aaaaaaaa AAAAAAAA; 40 R144. -/
  | movAAbs (a : Addr)
  /-- `MOV !addr16,A`: 10011110 aaaaaaaa AAAAAAAA; 40 R144. -/
  | movAbsA (a : Addr)
  /-- `MOV PSW,#byte`: 00010001 00011110 dddddddd; 40 R145. -/
  | movPswImm (d : Byte)
  /-- `MOV A,PSW`: 11110000 00011110; 40 R145. -/
  | movAPsw
  /-- `MOV PSW,A`: 11110010 00011110; 40 R145. -/
  | movPswA
  /-- `MOV A,[DE]`: 10000101; 40 R146. -/
  | movADe
  /-- `MOV [DE],A`: 10010101; 40 R146. -/
  | movDeA
  /-- `MOV A,[HL]`: 10000111; 40 R146. -/
  | movAHl
  /-- `MOV [HL],A`: 10010111; 40 R146. -/
  | movHlA
  /-- `MOV A,[HL+byte]`: 10101110 dddddddd; 40 R147. -/
  | movAHlByte (d : Byte)
  /-- `MOV [HL+byte],A`: 10111110 dddddddd; 40 R147. -/
  | movHlByteA (d : Byte)
  /-- `MOV A,[HL+B]`: 10101011; 40 R148. -/
  | movAHlB
  /-- `MOV [HL+B],A`: 10111011; 40 R148. -/
  | movHlBA
  /-- `MOV A,[HL+C]`: 10101010; 40 R148. -/
  | movAHlC
  /-- `MOV [HL+C],A`: 10111010; 40 R148. -/
  | movHlCA
  /-- `XCH A,r`, r not A: 00110RRR; 40 R150. -/
  | xchAR (r : Reg8)
  /-- `XCH A,saddr`: 10000011 ssssssss; 40 R150. -/
  | xchASaddr (o : Byte)
  /-- `XCH A,sfr`: 10010011 ffffffff; 40 R150. -/
  | xchASfr (o : Byte)
  /-- `XCH A,!addr16`: 11001110 aaaaaaaa AAAAAAAA; 40 R150. -/
  | xchAAbs (a : Addr)
  /-- `XCH A,[DE]`: 00000101; 40 R150. -/
  | xchADe
  /-- `XCH A,[HL]`: 00000111; 40 R150. -/
  | xchAHl
  /-- `XCH A,[HL+byte]`: 11011110 dddddddd; 40 R150. -/
  | xchAHlByte (d : Byte)
  /-- `XCH A,[HL+B]`: 00110001 10001011; 40 R150. -/
  | xchAHlB
  /-- `XCH A,[HL+C]`: 00110001 10001010; 40 R150. -/
  | xchAHlC
  -- 16-bit data transfer (41)
  /-- `MOVW rp,#word`: 00010PP0 llllllll hhhhhhhh; 41 R171. -/
  | movwRpWord (p : RegPair) (w : Word)
  /-- `MOVW saddrp,#word`: 11101110 ssssssss llllllll hhhhhhhh; 41 R172. -/
  | movwSaddrpWord (o : Byte) (w : Word)
  /-- `MOVW sfrp,#word`: 11111110 ffffffff llllllll hhhhhhhh; 41 R173. -/
  | movwSfrpWord (o : Byte) (w : Word)
  /-- `MOVW AX,saddrp`: 10001001 ssssssss; 41 R172. -/
  | movwAxSaddrp (o : Byte)
  /-- `MOVW saddrp,AX`: 10011001 ssssssss; 41 R172. -/
  | movwSaddrpAx (o : Byte)
  /-- `MOVW AX,sfrp`: 10101001 ffffffff; 41 R173. -/
  | movwAxSfrp (o : Byte)
  /-- `MOVW sfrp,AX`: 10111001 ffffffff; 41 R173. -/
  | movwSfrpAx (o : Byte)
  /-- `MOVW AX,rp`, rp not AX: 11000PP0; 41 R171. -/
  | movwAxRp (p : RegPair)
  /-- `MOVW rp,AX`, rp not AX: 11010PP0; 41 R171. -/
  | movwRpAx (p : RegPair)
  /-- `MOVW AX,!addr16`: 00000010 aaaaaaaa AAAAAAAA; 41 R174. -/
  | movwAxAbs (a : Addr)
  /-- `MOVW !addr16,AX`: 00000011 aaaaaaaa AAAAAAAA; 41 R174. -/
  | movwAbsAx (a : Addr)
  /-- `XCHW AX,rp`, rp not AX: 11100PP0; 41 R176. -/
  | xchwAxRp (p : RegPair)
  -- 8-bit operations (42)
  /-- `ADD A,#byte`: 00001101 dddddddd; 42 R191. -/
  | addAImm (d : Byte)
  /-- `ADD saddr,#byte`: 10001000 ssssssss dddddddd; 42 R191. -/
  | addSaddrImm (o : Byte) (d : Byte)
  /-- `ADD A,r`, r not A: 01100001 00001RRR; 42 R191. -/
  | addAR (r : Reg8)
  /-- `ADD r,A`: 01100001 00000RRR; 42 R191. -/
  | addRA (r : Reg8)
  /-- `ADD A,saddr`: 00001110 ssssssss; 42 R191. -/
  | addASaddr (o : Byte)
  /-- `ADD A,!addr16`: 00001000 aaaaaaaa AAAAAAAA; 42 R191. -/
  | addAAbs (a : Addr)
  /-- `ADD A,[HL]`: 00001111; 42 R191. -/
  | addAHl
  /-- `ADD A,[HL+byte]`: 00001001 dddddddd; 42 R191. -/
  | addAHlByte (d : Byte)
  /-- `ADD A,[HL+B]`: 00110001 00001011; 42 R191. -/
  | addAHlB
  /-- `ADD A,[HL+C]`: 00110001 00001010; 42 R191. -/
  | addAHlC
  /-- `ADDC A,#byte`: 00101101 dddddddd; 42 R192. -/
  | addcAImm (d : Byte)
  /-- `ADDC saddr,#byte`: 10101000 ssssssss dddddddd; 42 R192. -/
  | addcSaddrImm (o : Byte) (d : Byte)
  /-- `ADDC A,r`, r not A: 01100001 00101RRR; 42 R192. -/
  | addcAR (r : Reg8)
  /-- `ADDC r,A`: 01100001 00100RRR; 42 R192. -/
  | addcRA (r : Reg8)
  /-- `ADDC A,saddr`: 00101110 ssssssss; 42 R192. -/
  | addcASaddr (o : Byte)
  /-- `ADDC A,!addr16`: 00101000 aaaaaaaa AAAAAAAA; 42 R192. -/
  | addcAAbs (a : Addr)
  /-- `ADDC A,[HL]`: 00101111; 42 R192. -/
  | addcAHl
  /-- `ADDC A,[HL+byte]`: 00101001 dddddddd; 42 R192. -/
  | addcAHlByte (d : Byte)
  /-- `ADDC A,[HL+B]`: 00110001 00101011; 42 R192. -/
  | addcAHlB
  /-- `ADDC A,[HL+C]`: 00110001 00101010; 42 R192. -/
  | addcAHlC
  /-- `SUB A,#byte`: 00011101 dddddddd; 42 R193. -/
  | subAImm (d : Byte)
  /-- `SUB saddr,#byte`: 10011000 ssssssss dddddddd; 42 R193. -/
  | subSaddrImm (o : Byte) (d : Byte)
  /-- `SUB A,r`, r not A: 01100001 00011RRR; 42 R193. -/
  | subAR (r : Reg8)
  /-- `SUB r,A`: 01100001 00010RRR; 42 R193. -/
  | subRA (r : Reg8)
  /-- `SUB A,saddr`: 00011110 ssssssss; 42 R193. -/
  | subASaddr (o : Byte)
  /-- `SUB A,!addr16`: 00011000 aaaaaaaa AAAAAAAA; 42 R193. -/
  | subAAbs (a : Addr)
  /-- `SUB A,[HL]`: 00011111; 42 R193. -/
  | subAHl
  /-- `SUB A,[HL+byte]`: 00011001 dddddddd; 42 R193. -/
  | subAHlByte (d : Byte)
  /-- `SUB A,[HL+B]`: 00110001 00011011; 42 R193. -/
  | subAHlB
  /-- `SUB A,[HL+C]`: 00110001 00011010; 42 R193. -/
  | subAHlC
  /-- `SUBC A,#byte`: 00111101 dddddddd; 42 R194. -/
  | subcAImm (d : Byte)
  /-- `SUBC saddr,#byte`: 10111000 ssssssss dddddddd; 42 R194. -/
  | subcSaddrImm (o : Byte) (d : Byte)
  /-- `SUBC A,r`, r not A: 01100001 00111RRR; 42 R194. -/
  | subcAR (r : Reg8)
  /-- `SUBC r,A`: 01100001 00110RRR; 42 R194. -/
  | subcRA (r : Reg8)
  /-- `SUBC A,saddr`: 00111110 ssssssss; 42 R194. -/
  | subcASaddr (o : Byte)
  /-- `SUBC A,!addr16`: 00111000 aaaaaaaa AAAAAAAA; 42 R194. -/
  | subcAAbs (a : Addr)
  /-- `SUBC A,[HL]`: 00111111; 42 R194. -/
  | subcAHl
  /-- `SUBC A,[HL+byte]`: 00111001 dddddddd; 42 R194. -/
  | subcAHlByte (d : Byte)
  /-- `SUBC A,[HL+B]`: 00110001 00111011; 42 R194. -/
  | subcAHlB
  /-- `SUBC A,[HL+C]`: 00110001 00111010; 42 R194. -/
  | subcAHlC
  /-- `AND A,#byte`: 01011101 dddddddd; 42 R195. -/
  | andAImm (d : Byte)
  /-- `AND saddr,#byte`: 11011000 ssssssss dddddddd; 42 R195. -/
  | andSaddrImm (o : Byte) (d : Byte)
  /-- `AND A,r`, r not A: 01100001 01011RRR; 42 R195. -/
  | andAR (r : Reg8)
  /-- `AND r,A`: 01100001 01010RRR; 42 R195. -/
  | andRA (r : Reg8)
  /-- `AND A,saddr`: 01011110 ssssssss; 42 R195. -/
  | andASaddr (o : Byte)
  /-- `AND A,!addr16`: 01011000 aaaaaaaa AAAAAAAA; 42 R195. -/
  | andAAbs (a : Addr)
  /-- `AND A,[HL]`: 01011111; 42 R195. -/
  | andAHl
  /-- `AND A,[HL+byte]`: 01011001 dddddddd; 42 R195. -/
  | andAHlByte (d : Byte)
  /-- `AND A,[HL+B]`: 00110001 01011011; 42 R195. -/
  | andAHlB
  /-- `AND A,[HL+C]`: 00110001 01011010; 42 R195. -/
  | andAHlC
  /-- `OR A,#byte`: 01101101 dddddddd; 42 R196. -/
  | orAImm (d : Byte)
  /-- `OR saddr,#byte`: 11101000 ssssssss dddddddd; 42 R196. -/
  | orSaddrImm (o : Byte) (d : Byte)
  /-- `OR A,r`, r not A: 01100001 01101RRR; 42 R196. -/
  | orAR (r : Reg8)
  /-- `OR r,A`: 01100001 01100RRR; 42 R196. -/
  | orRA (r : Reg8)
  /-- `OR A,saddr`: 01101110 ssssssss; 42 R196. -/
  | orASaddr (o : Byte)
  /-- `OR A,!addr16`: 01101000 aaaaaaaa AAAAAAAA; 42 R196. -/
  | orAAbs (a : Addr)
  /-- `OR A,[HL]`: 01101111; 42 R196. -/
  | orAHl
  /-- `OR A,[HL+byte]`: 01101001 dddddddd; 42 R196. -/
  | orAHlByte (d : Byte)
  /-- `OR A,[HL+B]`: 00110001 01101011; 42 R196. -/
  | orAHlB
  /-- `OR A,[HL+C]`: 00110001 01101010; 42 R196. -/
  | orAHlC
  /-- `XOR A,#byte`: 01111101 dddddddd; 42 R197. -/
  | xorAImm (d : Byte)
  /-- `XOR saddr,#byte`: 11111000 ssssssss dddddddd; 42 R197. -/
  | xorSaddrImm (o : Byte) (d : Byte)
  /-- `XOR A,r`, r not A: 01100001 01111RRR; 42 R197. -/
  | xorAR (r : Reg8)
  /-- `XOR r,A`: 01100001 01110RRR; 42 R197. -/
  | xorRA (r : Reg8)
  /-- `XOR A,saddr`: 01111110 ssssssss; 42 R197. -/
  | xorASaddr (o : Byte)
  /-- `XOR A,!addr16`: 01111000 aaaaaaaa AAAAAAAA; 42 R197. -/
  | xorAAbs (a : Addr)
  /-- `XOR A,[HL]`: 01111111; 42 R197. -/
  | xorAHl
  /-- `XOR A,[HL+byte]`: 01111001 dddddddd; 42 R197. -/
  | xorAHlByte (d : Byte)
  /-- `XOR A,[HL+B]`: 00110001 01111011; 42 R197. -/
  | xorAHlB
  /-- `XOR A,[HL+C]`: 00110001 01111010; 42 R197. -/
  | xorAHlC
  /-- `CMP A,#byte`: 01001101 dddddddd; 42 R198. -/
  | cmpAImm (d : Byte)
  /-- `CMP saddr,#byte`: 11001000 ssssssss dddddddd; 42 R198. -/
  | cmpSaddrImm (o : Byte) (d : Byte)
  /-- `CMP A,r`, r not A: 01100001 01001RRR; 42 R198. -/
  | cmpAR (r : Reg8)
  /-- `CMP r,A`: 01100001 01000RRR; 42 R198. -/
  | cmpRA (r : Reg8)
  /-- `CMP A,saddr`: 01001110 ssssssss; 42 R198. -/
  | cmpASaddr (o : Byte)
  /-- `CMP A,!addr16`: 01001000 aaaaaaaa AAAAAAAA; 42 R198. -/
  | cmpAAbs (a : Addr)
  /-- `CMP A,[HL]`: 01001111; 42 R198. -/
  | cmpAHl
  /-- `CMP A,[HL+byte]`: 01001001 dddddddd; 42 R198. -/
  | cmpAHlByte (d : Byte)
  /-- `CMP A,[HL+B]`: 00110001 01001011; 42 R198. -/
  | cmpAHlB
  /-- `CMP A,[HL+C]`: 00110001 01001010; 42 R198. -/
  | cmpAHlC
  -- 16-bit operations (43)
  /-- `ADDW AX,#word`: 11001010 llllllll hhhhhhhh; 43 R220. -/
  | addwAxWord (w : Word)
  /-- `SUBW AX,#word`: 11011010 llllllll hhhhhhhh; 43 R221. -/
  | subwAxWord (w : Word)
  /-- `CMPW AX,#word`: 11101010 llllllll hhhhhhhh; 43 R222. -/
  | cmpwAxWord (w : Word)
  -- Multiply, divide, increment, decrement (44)
  /-- `MULU X`: 00110001 10001000; 44 R230. -/
  | mulu
  /-- `DIVUW C`: 00110001 10000010; 44 R231. -/
  | divuw
  /-- `INC r`: 01000RRR; 44 R235. -/
  | incR (r : Reg8)
  /-- `INC saddr`: 10000001 ssssssss; 44 R235. -/
  | incSaddr (o : Byte)
  /-- `DEC r`: 01010RRR; 44 R236. -/
  | decR (r : Reg8)
  /-- `DEC saddr`: 10010001 ssssssss; 44 R236. -/
  | decSaddr (o : Byte)
  /-- `INCW rp`: 10000PP0; 44 R237. -/
  | incwRp (p : RegPair)
  /-- `DECW rp`: 10010PP0; 44 R238. -/
  | decwRp (p : RegPair)
  -- Rotate and BCD adjust (45)
  /-- `ROR A,1`: 00100100; 45 R250. -/
  | ror
  /-- `ROL A,1`: 00100110; 45 R251. -/
  | rol
  /-- `RORC A,1`: 00100101; 45 R252. -/
  | rorc
  /-- `ROLC A,1`: 00100111; 45 R253. -/
  | rolc
  /-- `ROR4 [HL]`: 00110001 10010000; 45 R254. -/
  | ror4
  /-- `ROL4 [HL]`: 00110001 10000000; 45 R255. -/
  | rol4
  /-- `ADJBA`: 01100001 10000000; 45 R258. -/
  | adjba
  /-- `ADJBS`: 01100001 10010000; 45 R259. -/
  | adjbs
  -- Bit manipulation (46)
  /-- `MOV1 CY,saddr.bit`: 01110001 0BBB0100 ssssssss; 46 R271. -/
  | mov1CySaddrBit (o : Byte) (n : BitVec 3)
  /-- `MOV1 CY,sfr.bit`: 01110001 0BBB1100 ffffffff; 46 R271. -/
  | mov1CySfrBit (o : Byte) (n : BitVec 3)
  /-- `MOV1 CY,A.bit`: 01100001 1BBB1100; 46 R271. -/
  | mov1CyABit (n : BitVec 3)
  /-- `MOV1 CY,PSW.bit`: 01110001 0BBB0100 00011110; 46 R271. -/
  | mov1CyPswBit (n : BitVec 3)
  /-- `MOV1 CY,[HL].bit`: 01110001 1BBB0100; 46 R271. -/
  | mov1CyHlBit (n : BitVec 3)
  /-- `MOV1 saddr.bit,CY`: 01110001 0BBB0001 ssssssss; 46 R272. -/
  | mov1SaddrBitCy (o : Byte) (n : BitVec 3)
  /-- `MOV1 sfr.bit,CY`: 01110001 0BBB1001 ffffffff; 46 R272. -/
  | mov1SfrBitCy (o : Byte) (n : BitVec 3)
  /-- `MOV1 A.bit,CY`: 01100001 1BBB1001; 46 R272. -/
  | mov1ABitCy (n : BitVec 3)
  /-- `MOV1 PSW.bit,CY`: 01110001 0BBB0001 00011110; 46 R272. -/
  | mov1PswBitCy (n : BitVec 3)
  /-- `MOV1 [HL].bit,CY`: 01110001 1BBB0001; 46 R272. -/
  | mov1HlBitCy (n : BitVec 3)
  /-- `AND1 CY,saddr.bit`: 01110001 0BBB0101 ssssssss; 46 R274. -/
  | and1CySaddrBit (o : Byte) (n : BitVec 3)
  /-- `AND1 CY,sfr.bit`: 01110001 0BBB1101 ffffffff; 46 R274. -/
  | and1CySfrBit (o : Byte) (n : BitVec 3)
  /-- `AND1 CY,A.bit`: 01100001 1BBB1101; 46 R274. -/
  | and1CyABit (n : BitVec 3)
  /-- `AND1 CY,PSW.bit`: 01110001 0BBB0101 00011110; 46 R274. -/
  | and1CyPswBit (n : BitVec 3)
  /-- `AND1 CY,[HL].bit`: 01110001 1BBB0101; 46 R274. -/
  | and1CyHlBit (n : BitVec 3)
  /-- `OR1 CY,saddr.bit`: 01110001 0BBB0110 ssssssss; 46 R275. -/
  | or1CySaddrBit (o : Byte) (n : BitVec 3)
  /-- `OR1 CY,sfr.bit`: 01110001 0BBB1110 ffffffff; 46 R275. -/
  | or1CySfrBit (o : Byte) (n : BitVec 3)
  /-- `OR1 CY,A.bit`: 01100001 1BBB1110; 46 R275. -/
  | or1CyABit (n : BitVec 3)
  /-- `OR1 CY,PSW.bit`: 01110001 0BBB0110 00011110; 46 R275. -/
  | or1CyPswBit (n : BitVec 3)
  /-- `OR1 CY,[HL].bit`: 01110001 1BBB0110; 46 R275. -/
  | or1CyHlBit (n : BitVec 3)
  /-- `XOR1 CY,saddr.bit`: 01110001 0BBB0111 ssssssss; 46 R276. -/
  | xor1CySaddrBit (o : Byte) (n : BitVec 3)
  /-- `XOR1 CY,sfr.bit`: 01110001 0BBB1111 ffffffff; 46 R276. -/
  | xor1CySfrBit (o : Byte) (n : BitVec 3)
  /-- `XOR1 CY,A.bit`: 01100001 1BBB1111; 46 R276. -/
  | xor1CyABit (n : BitVec 3)
  /-- `XOR1 CY,PSW.bit`: 01110001 0BBB0111 00011110; 46 R276. -/
  | xor1CyPswBit (n : BitVec 3)
  /-- `XOR1 CY,[HL].bit`: 01110001 1BBB0111; 46 R276. -/
  | xor1CyHlBit (n : BitVec 3)
  /-- `SET1 saddr.bit`: 0BBB1010 ssssssss; 46 R278. -/
  | set1SaddrBit (o : Byte) (n : BitVec 3)
  /-- `SET1 sfr.bit`: 01110001 0BBB1010 ffffffff; 46 R278. -/
  | set1SfrBit (o : Byte) (n : BitVec 3)
  /-- `SET1 A.bit`: 01100001 1BBB1010; 46 R278. -/
  | set1ABit (n : BitVec 3)
  /-- `SET1 PSW.bit`: 0BBB1010 00011110; 46 R278. -/
  | set1PswBit (n : BitVec 3)
  /-- `SET1 [HL].bit`: 01110001 1BBB0010; 46 R278. -/
  | set1HlBit (n : BitVec 3)
  /-- `CLR1 saddr.bit`: 0BBB1011 ssssssss; 46 R279. -/
  | clr1SaddrBit (o : Byte) (n : BitVec 3)
  /-- `CLR1 sfr.bit`: 01110001 0BBB1011 ffffffff; 46 R279. -/
  | clr1SfrBit (o : Byte) (n : BitVec 3)
  /-- `CLR1 A.bit`: 01100001 1BBB1011; 46 R279. -/
  | clr1ABit (n : BitVec 3)
  /-- `CLR1 PSW.bit`: 0BBB1011 00011110; 46 R279. -/
  | clr1PswBit (n : BitVec 3)
  /-- `CLR1 [HL].bit`: 01110001 1BBB0011; 46 R279. -/
  | clr1HlBit (n : BitVec 3)
  /-- `SET1 CY`: 00100000; 46 R280. -/
  | set1Cy
  /-- `CLR1 CY`: 00100001; 46 R281. -/
  | clr1Cy
  /-- `NOT1 CY`: 00000001; 46 R282. -/
  | not1Cy
  -- Call, return and stack manipulation (47)
  /-- `CALL !addr16`: 10011010 aaaaaaaa AAAAAAAA; 47 R303. -/
  | call (a : Addr)
  /-- `CALLF !addr11`: 0FFF1100 gggggggg; 47 R304. -/
  | callf (f : BitVec 11)
  /-- `CALLT [addr5]`: 11TTTTT1; 47 R305. -/
  | callt (t : BitVec 5)
  /-- `BRK`: 10111111; 47 R306. -/
  | brk
  /-- `RET`: 10101111; 47 R307. -/
  | ret
  /-- `RETB`: 10011111; 47 R309. -/
  | retb
  /-- `RETI`: 10001111; 47 R308. -/
  | reti
  /-- `PUSH PSW`: 00100010; 47 R310. -/
  | pushPsw
  /-- `PUSH rp`: 10110PP1; 47 R310. -/
  | pushRp (p : RegPair)
  /-- `POP PSW`: 00100011; 47 R311. -/
  | popPsw
  /-- `POP rp`: 10110PP0; 47 R311. -/
  | popRp (p : RegPair)
  /-- `MOVW SP,#word`: 11101110 00011100 llllllll hhhhhhhh; 47 R312. -/
  | movwSpWord (w : Word)
  /-- `MOVW SP,AX`: 10011001 00011100; 47 R313. -/
  | movwSpAx
  /-- `MOVW AX,SP`: 10001001 00011100; 47 R314. -/
  | movwAxSp
  -- Branches (48)
  /-- `BR !addr16`: 10011011 aaaaaaaa AAAAAAAA; 48 R331. -/
  | brAbs (a : Addr)
  /-- `BR $addr16`: 11111010 jjjjjjjj; 48 R332. -/
  | brRel (j : Byte)
  /-- `BR AX`: 00110001 10011000; 48 R333. -/
  | brAx
  /-- `BC $addr16`: 10001101 jjjjjjjj; 48 R335. -/
  | bc (j : Byte)
  /-- `BNC $addr16`: 10011101 jjjjjjjj; 48 R336. -/
  | bnc (j : Byte)
  /-- `BZ $addr16`: 10101101 jjjjjjjj; 48 R337. -/
  | bz (j : Byte)
  /-- `BNZ $addr16`: 10111101 jjjjjjjj; 48 R338. -/
  | bnz (j : Byte)
  /-- `BT saddr.bit,$addr16`: 1BBB1100 ssssssss jjjjjjjj; 48 R340. -/
  | btSaddrBit (o : Byte) (n : BitVec 3) (j : Byte)
  /-- `BT sfr.bit,$addr16`: 00110001 0BBB0110 ffffffff jjjjjjjj; 48 R340. -/
  | btSfrBit (o : Byte) (n : BitVec 3) (j : Byte)
  /-- `BT A.bit,$addr16`: 00110001 0BBB1110 jjjjjjjj; 48 R340. -/
  | btABit (n : BitVec 3) (j : Byte)
  /-- `BT PSW.bit,$addr16`: 1BBB1100 00011110 jjjjjjjj; 48 R340. -/
  | btPswBit (n : BitVec 3) (j : Byte)
  /-- `BT [HL].bit,$addr16`: 00110001 1BBB0110 jjjjjjjj; 48 R340. -/
  | btHlBit (n : BitVec 3) (j : Byte)
  /-- `BF saddr.bit,$addr16`: 00110001 0BBB0011 ssssssss jjjjjjjj; 48 R341. -/
  | bfSaddrBit (o : Byte) (n : BitVec 3) (j : Byte)
  /-- `BF sfr.bit,$addr16`: 00110001 0BBB0111 ffffffff jjjjjjjj; 48 R341. -/
  | bfSfrBit (o : Byte) (n : BitVec 3) (j : Byte)
  /-- `BF A.bit,$addr16`: 00110001 0BBB1111 jjjjjjjj; 48 R341. -/
  | bfABit (n : BitVec 3) (j : Byte)
  /-- `BF PSW.bit,$addr16`: 00110001 0BBB0011 00011110 jjjjjjjj; 48 R341. -/
  | bfPswBit (n : BitVec 3) (j : Byte)
  /-- `BF [HL].bit,$addr16`: 00110001 1BBB0111 jjjjjjjj; 48 R341. -/
  | bfHlBit (n : BitVec 3) (j : Byte)
  /-- `BTCLR saddr.bit,$addr16`: 00110001 0BBB0001 ssssssss jjjjjjjj; 48 R342. -/
  | btclrSaddrBit (o : Byte) (n : BitVec 3) (j : Byte)
  /-- `BTCLR sfr.bit,$addr16`: 00110001 0BBB0101 ffffffff jjjjjjjj; 48 R342. -/
  | btclrSfrBit (o : Byte) (n : BitVec 3) (j : Byte)
  /-- `BTCLR A.bit,$addr16`: 00110001 0BBB1101 jjjjjjjj; 48 R342. -/
  | btclrABit (n : BitVec 3) (j : Byte)
  /-- `BTCLR PSW.bit,$addr16`: 00110001 0BBB0001 00011110 jjjjjjjj; 48 R342. -/
  | btclrPswBit (n : BitVec 3) (j : Byte)
  /-- `BTCLR [HL].bit,$addr16`: 00110001 1BBB0101 jjjjjjjj; 48 R342. -/
  | btclrHlBit (n : BitVec 3) (j : Byte)
  /-- `DBNZ B,$addr16`: 10001011 jjjjjjjj; 48 R343. -/
  | dbnzB (j : Byte)
  /-- `DBNZ C,$addr16`: 10001010 jjjjjjjj; 48 R343. -/
  | dbnzC (j : Byte)
  /-- `DBNZ saddr,$addr16`: 00000100 ssssssss jjjjjjjj; 48 R343. -/
  | dbnzSaddr (o : Byte) (j : Byte)
  -- CPU control (49)
  /-- `SEL RBn`: 01100001 11M1N000; 49 R360. -/
  | sel (b : BitVec 2)
  /-- `NOP`: 00000000; 49 R361. -/
  | nop
  /-- `EI`: 01111010 00011110; 49 R362. -/
  | ei
  /-- `DI`: 01111011 00011110; 49 R363. -/
  | di
  /-- `HALT`: 01110001 00010000; 49 R364. -/
  | halt
  /-- `STOP`: 01110001 00000000; 49 R365. -/
  | stop
  deriving DecidableEq, Repr

end Sys2Proof
end

