-- ==== Sys2Proof/Machine/Bits.lean ====
section
/-! DEFINITION. Bit fields, byte order and sign extension, and the register numbers of instruction codes
(00_scope R8, R9; 10_state R24). -/

namespace Sys2Proof.Machine

/-- The word with the given high and low bytes (00_scope R8: a pair in braces has its first part on top). -/
def mkWord (hi lo : Byte) : Word := hi ++ lo

/-- Bits 15 to 8 of a word (00_scope R8). -/
def hiByte (w : Word) : Byte := w.extractLsb' 8 8

/-- Bits 7 to 0 of a word (00_scope R8). -/
def loByte (w : Word) : Byte := w.extractLsb' 0 8

/-- Bit `n` of a byte (00_scope R8). -/
def bitOf (v : Byte) (n : BitVec 3) : Bool := v.getLsbD n.toNat

/-- The byte `v` with bit `n` replaced by `b` (20_memory R89). -/
def withBit (v : Byte) (n : BitVec 3) (b : Bool) : Byte :=
  (v &&& ~~~((1#8) <<< n.toNat)) ||| ((BitVec.ofBool b).setWidth 8 <<< n.toNat)

/-- Sign extension of a displacement to 16 bits (00_scope R9). -/
def sext16 (v : Byte) : Word := v.signExtend 16

/-- Zero extension of a byte to 16 bits (00_scope R9). -/
def zext16 (v : Byte) : Word := v.setWidth 16

/-- The `k`-bit field of an instruction byte whose lowest bit is bit `lo` (30_encoding R104). -/
def fieldOf (k lo : Nat) (b : Byte) : BitVec k := b.extractLsb' lo k

/-- A field value moved to its place in an instruction byte (30_encoding R104). -/
def placed {k : Nat} (lo : Nat) (v : BitVec k) : Byte := v.setWidth 8 <<< lo

end Sys2Proof.Machine

namespace Sys2Proof

/-- The 3-bit register number of an instruction code (10_state R24). -/
def Reg8.code : Reg8 → BitVec 3
  | .x => 0 | .a => 1 | .c => 2 | .b => 3 | .e => 4 | .d => 5 | .l => 6 | .h => 7

/-- The register a 3-bit register number selects (10_state R24). -/
def Reg8.ofCode (n : BitVec 3) : Reg8 :=
  if n = 0 then .x else if n = 1 then .a else if n = 2 then .c else if n = 3 then .b
  else if n = 4 then .e else if n = 5 then .d else if n = 6 then .l else .h

/-- The 2-bit register pair number of an instruction code (10_state R24). -/
def RegPair.code : RegPair → BitVec 2
  | .ax => 0 | .bc => 1 | .de => 2 | .hl => 3

/-- The register pair a 2-bit pair number selects (10_state R24). -/
def RegPair.ofCode (n : BitVec 2) : RegPair :=
  if n = 0 then .ax else if n = 1 then .bc else if n = 2 then .de else .hl

/-- The register that holds bits 7 to 0 of a pair: register 2j (10_state R23). -/
def RegPair.lowReg : RegPair → Reg8
  | .ax => .x | .bc => .c | .de => .e | .hl => .l

/-- The register that holds bits 15 to 8 of a pair: register 2j+1 (10_state R23). -/
def RegPair.highReg : RegPair → Reg8
  | .ax => .a | .bc => .b | .de => .d | .hl => .h

end Sys2Proof
end

