-- ==== Sys2Proof/Config.lean ====
section
/-! DEFINITION. What a product of the series fixes (00_scope R6), as plain data, and the free values of the spec.

The parameters `MemMap`, `IHRAM`, `SfrMap`, `IntSources`, `StandbyRelease`, `UndefinedOpcode` and `HoldSet` are the fields
of `Config`. A state carries its `Config`, and no step changes it, so a statement about every state is a statement about
every product. `AcUndef` and what a device SFR reads as (`SfrMap.read`) are opaque constants, and `ResetValues` is an
argument of the RESET input (Machine/Reset.lean). -/

namespace Sys2Proof

/-- The kind of memory behind a region of `MemMap` (00_scope R6); only RAM loses its contents at RESET
(70_reset R455). DESIGN CHOICE, unsafe: the IEBus register area, and a peripheral device in external memory, have no kind
of their own, though 20_memory R68 names them; a product lists such an area as `ram` or `external`, so it is plain storage
that RESET loses or keeps (notes/assumptions/38.md). -/
inductive RegionKind where
  /-- Internal ROM: the program image. -/
  | rom
  /-- RAM other than the internal high-speed RAM: buffer, display and expansion RAM (20_memory R68). -/
  | ram
  /-- External memory (20_memory R68). -/
  | external
  deriving DecidableEq, Repr

/-- One range of addresses of `MemMap` (00_scope R6), outside the internal high-speed RAM and the SFR area. -/
structure Region where
  lo : Nat
  hi : Nat
  kind : RegionKind
  readable : Bool
  writable : Bool
  executable : Bool
  deriving DecidableEq, Repr

/-- A range of addresses, both ends in it. -/
structure AddrRange where
  lo : Nat
  hi : Nat
  deriving DecidableEq, Repr

/-- How an SFR reacts to reads and writes (20_memory R79). -/
inductive SfrBehaviour where
  /-- Plain storage: it reads as the byte last written. -/
  | plain
  /-- It may change by itself and react to reads and writes: every access is an opaque call, `SfrMap.read(a)` or
  `SfrMap.write(a, v)`. -/
  | device
  deriving DecidableEq, Repr

/-- One thing that happened to the device SFRs (20_memory R79). -/
inductive SfrEvent where
  /-- The call `SfrMap.read(a)`. -/
  | read (a : Addr)
  /-- The call `SfrMap.write(a, v)`. -/
  | write (a : Addr) (v : Byte)
  /-- The peripheral behind `a` took the input `v` from outside the CPU. -/
  | external (a : Addr) (v : Byte)
  /-- RESET input. -/
  | reset
  deriving DecidableEq, Repr

/-- One allocated SFR byte of `SfrMap` (00_scope R6; 20_memory R69, R79), other than PSW and SP. -/
structure Sfr where
  addr : Addr
  behaviour : SfrBehaviour
  readable : Bool
  writable : Bool
  /-- 1-bit manipulation is allowed. -/
  bitUnit : Bool
  /-- 8-bit manipulation is allowed. -/
  byteUnit : Bool
  /-- 16-bit manipulation is allowed. -/
  wordUnit : Bool
  /-- The byte RESET puts there; what a device reads as after RESET is left free all the same (notes/assumptions/13.md). -/
  resetValue : Byte
  deriving DecidableEq, Repr

/-- The place of an interrupt flag: a bit of an SFR byte (60_exceptions R409). -/
structure FlagLoc where
  addr : Addr
  bit : BitVec 3
  deriving DecidableEq, Repr

/-- The kind of an interrupt source, with the flags of a maskable one: request IF (1 = pending), mask MK
(1 = masked) and priority PR (0 = high, 1 = low) (60_exceptions R408, R409). -/
inductive SourceKind where
  | nonMaskable
  | maskable (request mask priority : FlagLoc)
  deriving DecidableEq, Repr

/-- One entry of `IntSources` (60_exceptions R408), with its part of `StandbyRelease` (60_exceptions R432). Its vector
also stands for its name, which has no effect (notes/assumptions/39.md). -/
structure IntSource where
  /-- The address of the source's entry of the vector table. -/
  vector : Addr
  kind : SourceKind
  /-- A request of this source can end Halt mode. -/
  releasesHalt : Bool
  /-- A request of this source can end Stop mode. -/
  releasesStop : Bool
  deriving DecidableEq, Repr

/-- A pattern over the first bytes of an instruction: for each byte a mask and the bits it leaves. -/
abbrev CodePattern := List (Byte × Byte)

/-- The bytes begin with the pattern. -/
def CodePattern.matches : CodePattern → List Byte → Bool
  | [], _ => true
  | _ :: _, [] => false
  | (mask, v) :: p, b :: bytes => b &&& mask == v && CodePattern.matches p bytes

/-- An entry of `UndefinedOpcode`: a product decodes the unassigned `code` as it decodes `actsAs`, which has as many
bytes (30_encoding R125; 92 D6, "real parts may decode aliases"). -/
structure OpcodeAlias where
  code : List Byte
  actsAs : List Byte
  deriving DecidableEq, Repr

/-- The parameters of a product (00_scope R6). -/
structure Config where
  /-- `MemMap` outside the internal high-speed RAM and the SFR area; the first region holding an address counts. -/
  regions : List Region
  /-- The lower bound of `IHRAM`; FE20H-FEFFH belongs to it whatever this says (20_memory R67). -/
  ihramLo : Nat
  /-- The parts of the internal high-speed RAM that `MemMap` makes executable (20_memory R74). -/
  ihramExecutable : List AddrRange
  /-- `SfrMap`: the allocated SFR bytes other than PSW and SP. -/
  sfrs : List Sfr
  /-- `IntSources`, in default priority order (60_exceptions R414). -/
  sources : List IntSource
  /-- `UndefinedOpcode`: the unassigned codes that the product decodes as others; every other one is a fault, the default
  (30_encoding R125; 92 D6). -/
  opcodeAliases : List OpcodeAlias
  /-- `HoldSet` beyond the seven instructions the sources name, by their bytes; the default is none (60_exceptions R415;
  92 D17). -/
  moreHold : List CodePattern
  deriving DecidableEq, Repr

/-- `AcUndef` (00_scope R6; 43_operation_16 R223): the AC flag after the k-th execution of ADDW, SUBW or CMPW. It
has no body, so no proof can depend on its value. -/
opaque Config.acUndef : Nat → Bool

/-- `SfrMap.read(a)` (20_memory R79): the byte a device SFR reads as, after the events listed, the latest first. It may
depend on all that the device has seen, so it may change by itself and by being read. It has no body, so no proof can
depend on its value. -/
opaque Config.sfrRead : List SfrEvent → Addr → Byte

/-- A plain 8-bit SFR without side effects, as the spec's test fixture allocates them (95_test_vectors section 0). -/
def Config.plainSfr (addr : Addr) : Sfr :=
  { addr := addr, behaviour := .plain, readable := true, writable := true, bitUnit := true, byteUnit := true,
    wordUnit := false, resetValue := 0x00 }

/-- The spec's own test fixture (92_eei_decisions, parameters table; 95_test_vectors section 0), which is no
product: ROM 0000H-7FFFH, internal high-speed RAM FB00H-FEFFH, five plain SFRs, no interrupt source.
DESIGN CHOICE, unsafe: a claim about reset alone is a claim about this fixture. -/
def Config.fixture : Config where
  regions := [{ lo := 0x0000, hi := 0x7FFF, kind := .rom, readable := true, writable := false, executable := true }]
  ihramLo := 0xFB00
  ihramExecutable := [{ lo := 0xFB00, hi := 0xFEFF }]
  sfrs := [Config.plainSfr 0xFF02, Config.plainSfr 0xFF03, Config.plainSfr 0xFF10, Config.plainSfr 0xFF20,
    Config.plainSfr 0xFFFF]
  sources := []
  opcodeAliases := []
  moreHold := []

end Sys2Proof
end

