-- ==== Sys2Proof/Machine/Memory.lean ====
section
/-! DEFINITION. Memory as a list of (address, byte) pairs in one canonical form, and its two operations (20_memory R60).
The map of PSW and SP into the address space is in Machine/Ops.lean. -/

namespace Sys2Proof.Machine

/-- The bytes of the address space that differ from what an unlisted address reads as. Canonical form: addresses
strictly rising, no entry equal to `Memory.unlisted`. -/
abbrev Memory := List Host.Cell

/-- What an address reads as when no entry names it. DESIGN CHOICE, unsafe: 00H; the spec gives RAM and the program
image no contents at reset (70_reset R454; notes/assumptions/2.md). -/
def Memory.unlisted (_ : Nat) : Byte := 0x00

/-- The byte at an address. -/
def Memory.read : Memory → Nat → Byte
  | [], a => Memory.unlisted a
  | (k, v) :: m, a => if k = a then v else Memory.read m a

/-- The list with the entry for `a` set to `v`, at its place in the rising order. -/
def Memory.insert : Memory → Nat → Byte → Memory
  | [], a, v => [(a, v)]
  | (k, w) :: m, a, v =>
    if a < k then (a, v) :: (k, w) :: m
    else if a = k then (a, v) :: m
    else (k, w) :: Memory.insert m a v

/-- The list without an entry for `a`. -/
def Memory.erase : Memory → Nat → Memory
  | [], _ => []
  | (k, w) :: m, a => if k = a then Memory.erase m a else (k, w) :: Memory.erase m a

/-- Store a byte; storing what an unlisted address reads as removes the entry, so that equal memories are equal
data. -/
def Memory.write (m : Memory) (a : Nat) (v : Byte) : Memory :=
  if v = Memory.unlisted a then Memory.erase m a else Memory.insert m a v

/-- Every address of the list is above `b`. -/
def Memory.above (b : Nat) (m : Memory) : Bool := m.all (fun c => b < c.1)

/-- The canonical form: addresses strictly rising, no entry equal to what an unlisted address reads as. -/
def Memory.wf : Memory → Bool
  | [] => true
  | (k, v) :: m => v != Memory.unlisted k && Memory.above k m && Memory.wf m

/-- Every listed address satisfies `p`. -/
def Memory.keysIn (p : Nat → Bool) (m : Memory) : Bool := m.all (fun c => p c.1)

/-- The entries whose address satisfies `p`. -/
def Memory.restrict (p : Nat → Bool) (m : Memory) : Memory := m.filter (fun c => p c.1)

/-- The memory with each of the given cells stored, the last one last. -/
def Memory.writeAll (m : Memory) (cells : List Host.Cell) : Memory :=
  cells.foldl (fun m c => m.write c.1 c.2) m

end Sys2Proof.Machine
end

