-- ==== Sys2Proof/Machine/State.lean ====
section
/-! DEFINITION. The state of the machine (10_state R20 to R45), the reasons it can stop (60_exceptions R401), and the
state after reset. The general registers are bytes of memory (10_state R21), so they are no field of their own. -/

namespace Sys2Proof.Machine

/-- The standby mode (10_state R43). -/
inductive Mode where
  | run
  | halt
  | stop
  deriving DecidableEq, Repr

/-- Why the machine stops: the situations of 60_exceptions R401, which the sources give no behaviour. Each records
`pc`, the address of the instruction, and where there is one the address `ea` it touched. All are safe: the machine
stops where the hardware goes on in an undescribed way. -/
inductive Fault where
  /-- Raised by a fetch of bytes the code list does not assign (92 D6); `bytes` are those that identify it. Safe. -/
  | undefinedOpcode (pc : Addr) (bytes : List Byte)
  /-- Raised by an access or fetch of an address of the SFR area that no SFR is allocated to: stuck, "the CPU may
  become deadlocked" (93 U5). Safe. -/
  | sfrUnallocated (pc ea : Addr)
  /-- Raised by sfr addressing with offset D0H to DFH (20_memory R83; 92 D5). Safe. -/
  | sfrOffset (pc ea : Addr)
  /-- Raised by a bit, byte or word access to an SFR that does not allow the unit (20_memory R79). Safe. -/
  | sfrUnit (pc ea : Addr)
  /-- Raised by a read of a write-only SFR or of an area that `MemMap` does not make readable (20_memory R72, R79).
  Safe. -/
  | notReadable (pc ea : Addr)
  /-- Raised by a store to ROM, a read-only area or a read-only SFR (20_memory R73, R79; 92 D5). Safe. -/
  | notWritable (pc ea : Addr)
  /-- Raised by an access or fetch of an address without memory, outside the SFR area (92 D5). Safe. -/
  | unallocated (pc ea : Addr)
  /-- Raised by a fetch from an address that `MemMap` does not make executable (20_memory R74; 92 D5). Safe. -/
  | notExecutable (pc ea : Addr)
  /-- Raised by a 16-bit access at an odd address (20_memory R77; 92 D4). Safe. -/
  | oddWord (pc ea : Addr)
  /-- Raised by a push or pop outside the internal high-speed RAM (20_memory R88; 92 D7). Safe. -/
  | stackOutside (pc ea : Addr)
  /-- Raised by ROR4 and ROL4 with HL in the SFR area (45_rotate R254, R255; 92 D8). Safe. -/
  | rotateSfr (pc ea : Addr)
  deriving DecidableEq, Repr

/-- Why the machine refuses an instruction. -/
inductive Refusal where
  /-- Raised by an arm of `exec` whose instruction has no meaning yet; no arm does. Safe. -/
  | notModelled (mnemonic : String)
  deriving DecidableEq, Repr

/-- The state of the machine. -/
structure State where
  /-- The product (00_scope R6). The model's own field: no step changes it. -/
  cfg : Config
  /-- The address space except PSW and SP: RAM with the general registers in FEE0H to FEFFH (10_state R21), the program
  image, and the other SFR bytes (20_memory R60). -/
  mem : Memory
  /-- Program counter (10_state R27): between instructions, the address of the next one. -/
  pc : Addr
  /-- Program status word (10_state R30), which is also the byte at FF1EH (10_state R31). -/
  psw : Byte
  /-- Stack pointer (10_state R37), which is also the word at FF1CH (10_state R38). -/
  sp : Word
  /-- Non-maskable interrupt servicing in progress (10_state R40). -/
  nmis : Bool
  /-- The pending requests of the non-maskable sources (10_state R41; 60_exceptions R409): bit k is that of the source
  with entry k of the vector table. -/
  nmiPending : BitVec 32
  /-- No interrupt is acknowledged before the next instruction (10_state R42). -/
  hold : Bool
  /-- Standby mode (10_state R43). -/
  mode : Mode
  /-- What the device SFRs have seen, the latest first (20_memory R79): it stands for the state of the peripherals behind
  them. The model's own field. -/
  sfrLog : List SfrEvent
  /-- How many undefined AC flags have been taken (43_operation_16 R223). The model's own field. -/
  freeCount : Nat
  deriving DecidableEq, Repr

/-- One outcome of the machine: a next state, a fault or a refusal. -/
abbrev Result := Host.Outcome State Fault Refusal

/-- The machine after RESET input (10_state R45; 70_reset R452): PSW 02H, PC the word at 0000H of a memory with nothing
listed. DESIGN CHOICE, unsafe: the fixture as product (notes/assumptions/1.md), SP 0000H (3), registers and RAM 00H (2,
4), NMIS 0 and nothing pending (6, 22), nothing seen by a device SFR (13), the counter 0 (17). -/
def State.reset : State where
  cfg := Config.fixture
  mem := []
  pc := 0x0000
  psw := 0x02
  sp := 0x0000
  nmis := false
  nmiPending := 0
  hold := false
  mode := .run
  sfrLog := []
  freeCount := 0

end Sys2Proof.Machine
end

