-- ==== Sys2Proof/WellFormed.lean ====
section
/-! DEFINITION. Which terms of `Instr` are instructions: the operand values an encoding excludes (30_encoding R107),
and the offsets 1EH and 1CH and the bit 7 that belong to a row of their own (30_encoding R108: the row with more
fixed bits is the canonical one). Then which product parameters are sensible (`Config.ok`). -/

namespace Sys2Proof

/-- The saddr-offset of PSW (10_state R31). -/
def pswOffset : Byte := 0x1E

/-- The saddr-offset of SP (10_state R38). -/
def spOffset : Byte := 0x1C

/-- The instruction is the canonical reading of some byte sequence (30_encoding R106, R107, R108). -/
def Instr.wf : Instr → Bool
  -- 8-bit data transfer (40)
  | .movRImm _ _ => true
  | .movSaddrImm o _ => o != pswOffset
  | .movSfrImm _ _ => true
  | .movAR r => r != .a
  | .movRA r => r != .a
  | .movASaddr o => o != pswOffset
  | .movSaddrA o => o != pswOffset
  | .movASfr _ => true
  | .movSfrA _ => true
  | .movAAbs _ => true
  | .movAbsA _ => true
  | .movPswImm _ => true
  | .movAPsw => true
  | .movPswA => true
  | .movADe => true
  | .movDeA => true
  | .movAHl => true
  | .movHlA => true
  | .movAHlByte _ => true
  | .movHlByteA _ => true
  | .movAHlB => true
  | .movHlBA => true
  | .movAHlC => true
  | .movHlCA => true
  | .xchAR r => r != .a
  | .xchASaddr _ => true
  | .xchASfr _ => true
  | .xchAAbs _ => true
  | .xchADe => true
  | .xchAHl => true
  | .xchAHlByte _ => true
  | .xchAHlB => true
  | .xchAHlC => true
  -- 16-bit data transfer (41)
  | .movwRpWord _ _ => true
  | .movwSaddrpWord o _ => o != spOffset
  | .movwSfrpWord _ _ => true
  | .movwAxSaddrp o => o != spOffset
  | .movwSaddrpAx o => o != spOffset
  | .movwAxSfrp _ => true
  | .movwSfrpAx _ => true
  | .movwAxRp p => p != .ax
  | .movwRpAx p => p != .ax
  | .movwAxAbs _ => true
  | .movwAbsAx _ => true
  | .xchwAxRp p => p != .ax
  -- 8-bit operations (42)
  | .addAImm _ => true
  | .addSaddrImm _ _ => true
  | .addAR r => r != .a
  | .addRA _ => true
  | .addASaddr _ => true
  | .addAAbs _ => true
  | .addAHl => true
  | .addAHlByte _ => true
  | .addAHlB => true
  | .addAHlC => true
  | .addcAImm _ => true
  | .addcSaddrImm _ _ => true
  | .addcAR r => r != .a
  | .addcRA _ => true
  | .addcASaddr _ => true
  | .addcAAbs _ => true
  | .addcAHl => true
  | .addcAHlByte _ => true
  | .addcAHlB => true
  | .addcAHlC => true
  | .subAImm _ => true
  | .subSaddrImm _ _ => true
  | .subAR r => r != .a
  | .subRA _ => true
  | .subASaddr _ => true
  | .subAAbs _ => true
  | .subAHl => true
  | .subAHlByte _ => true
  | .subAHlB => true
  | .subAHlC => true
  | .subcAImm _ => true
  | .subcSaddrImm _ _ => true
  | .subcAR r => r != .a
  | .subcRA _ => true
  | .subcASaddr _ => true
  | .subcAAbs _ => true
  | .subcAHl => true
  | .subcAHlByte _ => true
  | .subcAHlB => true
  | .subcAHlC => true
  | .andAImm _ => true
  | .andSaddrImm _ _ => true
  | .andAR r => r != .a
  | .andRA _ => true
  | .andASaddr _ => true
  | .andAAbs _ => true
  | .andAHl => true
  | .andAHlByte _ => true
  | .andAHlB => true
  | .andAHlC => true
  | .orAImm _ => true
  | .orSaddrImm _ _ => true
  | .orAR r => r != .a
  | .orRA _ => true
  | .orASaddr _ => true
  | .orAAbs _ => true
  | .orAHl => true
  | .orAHlByte _ => true
  | .orAHlB => true
  | .orAHlC => true
  | .xorAImm _ => true
  | .xorSaddrImm _ _ => true
  | .xorAR r => r != .a
  | .xorRA _ => true
  | .xorASaddr _ => true
  | .xorAAbs _ => true
  | .xorAHl => true
  | .xorAHlByte _ => true
  | .xorAHlB => true
  | .xorAHlC => true
  | .cmpAImm _ => true
  | .cmpSaddrImm _ _ => true
  | .cmpAR r => r != .a
  | .cmpRA _ => true
  | .cmpASaddr _ => true
  | .cmpAAbs _ => true
  | .cmpAHl => true
  | .cmpAHlByte _ => true
  | .cmpAHlB => true
  | .cmpAHlC => true
  -- 16-bit operations (43)
  | .addwAxWord _ => true
  | .subwAxWord _ => true
  | .cmpwAxWord _ => true
  -- Multiply, divide, increment, decrement (44)
  | .mulu => true
  | .divuw => true
  | .incR _ => true
  | .incSaddr _ => true
  | .decR _ => true
  | .decSaddr _ => true
  | .incwRp _ => true
  | .decwRp _ => true
  -- Rotate and BCD adjust (45)
  | .ror => true
  | .rol => true
  | .rorc => true
  | .rolc => true
  | .ror4 => true
  | .rol4 => true
  | .adjba => true
  | .adjbs => true
  -- Bit manipulation (46)
  | .mov1CySaddrBit o _ => o != pswOffset
  | .mov1CySfrBit _ _ => true
  | .mov1CyABit _ => true
  | .mov1CyPswBit _ => true
  | .mov1CyHlBit _ => true
  | .mov1SaddrBitCy o _ => o != pswOffset
  | .mov1SfrBitCy _ _ => true
  | .mov1ABitCy _ => true
  | .mov1PswBitCy _ => true
  | .mov1HlBitCy _ => true
  | .and1CySaddrBit o _ => o != pswOffset
  | .and1CySfrBit _ _ => true
  | .and1CyABit _ => true
  | .and1CyPswBit _ => true
  | .and1CyHlBit _ => true
  | .or1CySaddrBit o _ => o != pswOffset
  | .or1CySfrBit _ _ => true
  | .or1CyABit _ => true
  | .or1CyPswBit _ => true
  | .or1CyHlBit _ => true
  | .xor1CySaddrBit o _ => o != pswOffset
  | .xor1CySfrBit _ _ => true
  | .xor1CyABit _ => true
  | .xor1CyPswBit _ => true
  | .xor1CyHlBit _ => true
  | .set1SaddrBit o _ => o != pswOffset
  | .set1SfrBit _ _ => true
  | .set1ABit _ => true
  | .set1PswBit n => n != 7
  | .set1HlBit _ => true
  | .clr1SaddrBit o _ => o != pswOffset
  | .clr1SfrBit _ _ => true
  | .clr1ABit _ => true
  | .clr1PswBit n => n != 7
  | .clr1HlBit _ => true
  | .set1Cy => true
  | .clr1Cy => true
  | .not1Cy => true
  -- Call, return and stack manipulation (47)
  | .call _ => true
  | .callf _ => true
  | .callt _ => true
  | .brk => true
  | .ret => true
  | .retb => true
  | .reti => true
  | .pushPsw => true
  | .pushRp _ => true
  | .popPsw => true
  | .popRp _ => true
  | .movwSpWord _ => true
  | .movwSpAx => true
  | .movwAxSp => true
  -- Branches (48)
  | .brAbs _ => true
  | .brRel _ => true
  | .brAx => true
  | .bc _ => true
  | .bnc _ => true
  | .bz _ => true
  | .bnz _ => true
  | .btSaddrBit o _ _ => o != pswOffset
  | .btSfrBit _ _ _ => true
  | .btABit _ _ => true
  | .btPswBit _ _ => true
  | .btHlBit _ _ => true
  | .bfSaddrBit o _ _ => o != pswOffset
  | .bfSfrBit _ _ _ => true
  | .bfABit _ _ => true
  | .bfPswBit _ _ => true
  | .bfHlBit _ _ => true
  | .btclrSaddrBit o _ _ => o != pswOffset
  | .btclrSfrBit _ _ _ => true
  | .btclrABit _ _ => true
  | .btclrPswBit _ _ => true
  | .btclrHlBit _ _ => true
  | .dbnzB _ => true
  | .dbnzC _ => true
  | .dbnzSaddr _ _ => true
  -- CPU control (49)
  | .sel _ => true
  | .nop => true
  | .ei => true
  | .di => true
  | .halt => true
  | .stop => true

/-- No two elements are equal. -/
def distinct : List Nat → Bool
  | [] => true
  | a :: l => !l.contains a && distinct l

/-- No two regions overlap. -/
def disjoint : List Region → Bool
  | [] => true
  | r :: l => l.all (fun q => q.hi < r.lo || r.hi < q.lo) && disjoint l

/-- The flags of a source (60_exceptions R409). -/
def IntSource.flags (src : IntSource) : List FlagLoc :=
  match src.kind with
  | .nonMaskable => []
  | .maskable request mask priority => [request, mask, priority]

/-- Internal ROM can be read and not written, and program memory starts with it: the vector table, the CALLT table and
the CALLF entry area lie in internal ROM that can be fetched from (00_scope R6; 20_memory R62 to R65, R73). -/
def Region.romOk (regions : List Region) : Bool :=
  regions.all (fun r => r.kind != .rom || (r.readable && !r.writable)) &&
    regions.any (fun r => r.kind == .rom && r.lo == 0 && 0x0FFF ≤ r.hi && r.executable)

/-- An entry of `UndefinedOpcode` replaces its bytes by as many others. -/
def OpcodeAlias.ok (x : OpcodeAlias) : Bool := x.code != [] && x.actsAs.length == x.code.length

/-- The flags of a source are bits of SFRs that are plain storage: the interrupt logic reads them at every boundary
without a call of `SfrMap.read` (60_exceptions R409; notes/assumptions/22.md). -/
def FlagLoc.ok (sfrs : List Sfr) (l : FlagLoc) : Bool := sfrs.any (fun f => f.addr == l.addr && f.behaviour == .plain)

/-- The parameters agree with what the sources fix of them (00_scope R6): `IHRAM` contains FE20H-FEFFH (20_memory R67);
the regions lie below it and do not overlap, and internal ROM is as 20_memory R65 says; the SFRs lie in the SFR area,
apart from PSW and SP (20_memory R69); the vectors are even and in 0002H to 003CH, so none is that of reset or BRK, and
every flag is a bit of an allocated SFR (60_exceptions R408, R409). DESIGN CHOICE, unsafe: no two sources share a vector,
and no two flags a bit, which R408 and R409 do not say (notes/assumptions/39.md). -/
def Config.ok (c : Config) : Bool :=
  c.ihramLo ≤ 0xFE20 &&
  c.regions.all (fun r => r.lo ≤ r.hi && r.hi < c.ihramLo) && disjoint c.regions &&
  Region.romOk c.regions &&
  c.sfrs.all (fun f => 0xFF00 ≤ f.addr.toNat && !(0xFF1C ≤ f.addr.toNat && f.addr.toNat ≤ 0xFF1E)) &&
  distinct (c.sfrs.map (fun f => f.addr.toNat)) &&
  c.sources.all (fun src => src.vector.toNat % 2 == 0 && 0x0002 ≤ src.vector.toNat && src.vector.toNat ≤ 0x003C) &&
  distinct (c.sources.map (fun src => src.vector.toNat)) &&
  (c.sources.flatMap IntSource.flags).all (FlagLoc.ok c.sfrs) &&
  c.opcodeAliases.all OpcodeAlias.ok &&
  distinct ((c.sources.flatMap IntSource.flags).map (fun l => 8 * l.addr.toNat + l.bit.toNat))

end Sys2Proof
end

