-- ==== Sys2Proof/Machine/Ops.lean ====
section
/-! DEFINITION. The named operations over memory, registers and stack (20_memory R72 to R79, 10_state R20 to R38,
47_call R300, R301), entering a handler and returning from one (60_exceptions R404, R410, R416). -/

namespace Sys2Proof.Machine

/-- The address PSW is mapped to (10_state R31). -/
def pswAddr : Addr := 0xFF1E

/-- The address of the low byte of SP (10_state R38). -/
def spLowAddr : Addr := 0xFF1C

/-- The address of the high byte of SP (10_state R38). -/
def spHighAddr : Addr := 0xFF1D

/-- The state with another PSW; the caller has changed single flags of it only (10_state R33). -/
def withPsw (s : State) (v : Byte) : State := { s with psw := v }

/-- The state with another SP (10_state R37). -/
def withSp (s : State) (v : Word) : State := { s with sp := v }

/-- Write PSW as a byte: bit 2 stays 0 (10_state R34; 92 D2). -/
def setPsw (s : State) (v : Byte) : State := withPsw s (v &&& 0xFB)

/-- The byte an address holds, before any check of whether it may be read (20_memory R72). Of a device SFR it is the byte
last written, which a read need not return: `valueAt`. -/
def byteAt (s : State) (a : Addr) : Byte :=
  if a = pswAddr then s.psw
  else if a = spLowAddr then loByte s.sp
  else if a = spHighAddr then hiByte s.sp
  else s.mem.read a.toNat

/-- The store of a byte, before any check of whether it may be written (20_memory R73). -/
def putByte (s : State) (a : Addr) (v : Byte) : State :=
  if a = pswAddr then setPsw s v
  else if a = spLowAddr then withSp s (mkWord (hiByte s.sp) v)
  else if a = spHighAddr then withSp s (mkWord v (loByte s.sp))
  else { s with mem := s.mem.write a.toNat v }

/-- The units an SFR may or may not allow (20_memory R79). A bit access is a byte access made by a bit instruction. -/
inductive AccessUnit where
  | bit
  | byte
  | word
  deriving DecidableEq, Repr

/-- The SFR allows accesses of the unit (20_memory R79). -/
def sfrAllows (f : Sfr) : AccessUnit → Bool
  | .bit => f.bitUnit
  | .byte => f.byteUnit
  | .word => f.wordUnit

/-- PSW and SP are reached by every mode and unit (10_state R31, R38; 92 D1). -/
def isControl (a : Addr) : Bool := a == pswAddr || a == spLowAddr || a == spHighAddr

/-- The address lies in the SFR area (20_memory R69). -/
def inSfrArea (a : Addr) : Bool := 0xFF00 ≤ a.toNat

/-- The SFR `SfrMap` allocates at the address (20_memory R69). -/
def sfrAt (c : Config) (a : Addr) : Option Sfr := c.sfrs.find? (fun f => f.addr == a)

/-- The address lies in the internal high-speed RAM, `IHRAM` (20_memory R67). -/
def inIhram (c : Config) (a : Addr) : Bool :=
  (c.ihramLo ≤ a.toNat || 0xFE20 ≤ a.toNat) && a.toNat ≤ 0xFEFF

/-- The region of `MemMap` that holds the address (20_memory R68). -/
def regionAt (c : Config) (a : Addr) : Option Region :=
  c.regions.find? (fun r => r.lo ≤ a.toNat && a.toNat ≤ r.hi)

/-- May the byte at `a` be read in this unit (20_memory R69, R72, R79)? -/
def checkRead (s : State) (u : AccessUnit) (a : Addr) : Except Fault Unit :=
  if isControl a then .ok ()
  else if inSfrArea a then
    match sfrAt s.cfg a with
    | none => .error (.sfrUnallocated s.pc a)
    | some f =>
      if !f.readable then .error (.notReadable s.pc a)
      else if !sfrAllows f u then .error (.sfrUnit s.pc a)
      else .ok ()
  else if inIhram s.cfg a then .ok ()
  else
    match regionAt s.cfg a with
    | none => .error (.unallocated s.pc a)
    | some r => if r.readable then .ok () else .error (.notReadable s.pc a)

/-- May the byte at `a` be written in this unit (20_memory R69, R73, R79)? -/
def checkWrite (s : State) (u : AccessUnit) (a : Addr) : Except Fault Unit :=
  if isControl a then .ok ()
  else if inSfrArea a then
    match sfrAt s.cfg a with
    | none => .error (.sfrUnallocated s.pc a)
    | some f =>
      if !f.writable then .error (.notWritable s.pc a)
      else if !sfrAllows f u then .error (.sfrUnit s.pc a)
      else .ok ()
  else if inIhram s.cfg a then .ok ()
  else
    match regionAt s.cfg a with
    | none => .error (.unallocated s.pc a)
    | some r => if r.writable then .ok () else .error (.notWritable s.pc a)

/-- The address is that of an SFR whose reads and writes are opaque calls (20_memory R79). -/
def isDevice (c : Config) (a : Addr) : Bool :=
  inSfrArea a && !isControl a && (sfrAt c a).any (fun f => f.behaviour == .device)

/-- The state after a read of `a`: a device SFR has seen it (20_memory R79). -/
def noteRead (s : State) (a : Addr) : State :=
  { s with sfrLog := if isDevice s.cfg a then .read a :: s.sfrLog else s.sfrLog }

/-- The state after `v` is sent to `a`: a device SFR has seen it (20_memory R79). -/
def noteWrite (s : State) (a : Addr) (v : Byte) : State :=
  { s with sfrLog := if isDevice s.cfg a then .write a v :: s.sfrLog else s.sfrLog }

/-- What a read of `a` returns (20_memory R72, R79). -/
def valueAt (s : State) (a : Addr) : Byte := if isDevice s.cfg a then Config.sfrRead s.sfrLog a else byteAt s a

/-- `MemRead(a, 1)`: the byte, and the state after the read (20_memory R72). -/
def load8 (s : State) (u : AccessUnit) (a : Addr) : Except Fault (Byte × State) := do
  checkRead s u a
  pure (valueAt s a, noteRead s a)

/-- `MemWrite(a, 1, v)` (20_memory R73). -/
def store8 (s : State) (u : AccessUnit) (a : Addr) (v : Byte) : Except Fault State := do
  checkWrite s u a
  pure (putByte (noteWrite s a v) a v)

/-- `MemRead(a, 2)`: little-endian, the low byte first (20_memory R75; 92 D15). -/
def load16 (s : State) (a : Addr) : Except Fault (Word × State) := do
  let (lo, s) ← load8 s .word a
  let (hi, s) ← load8 s .word (a + 1)
  pure (mkWord hi lo, s)

/-- `MemWrite(a, 2, v)`: little-endian, the low byte first (20_memory R75; 92 D15). -/
def store16 (s : State) (a : Addr) (v : Word) : Except Fault State := do
  let s ← store8 s .word a (loByte v)
  store8 s .word (a + 1) (hiByte v)

/-- A 16-bit operand's address must be even (20_memory R77; 92 D4). -/
def evenAddress (s : State) (a : Addr) : Except Fault Addr :=
  if a.getLsbD 0 then .error (.oddWord s.pc a) else .ok a

/-- RBS: the selected register bank (10_state R26, R30). An instruction takes it once, when it starts (92 D21). -/
def bank (s : State) : BitVec 2 := BitVec.ofBool (bitOf s.psw 5) ++ BitVec.ofBool (bitOf s.psw 3)

/-- `RegAddr(b, i)` = FEF8H - 8b + i (10_state R21). -/
def regAddr (b : BitVec 2) (r : Reg8) : Addr := 0xFEF8#16 - 8 * b.setWidth 16 + r.code.setWidth 16

/-- `r[i]` of bank `b` (10_state R21). -/
def reg (s : State) (b : BitVec 2) (r : Reg8) : Byte := byteAt s (regAddr b r)

/-- `r[i] <- v` in bank `b` (10_state R21). -/
def setReg (s : State) (b : BitVec 2) (r : Reg8) (v : Byte) : State := putByte s (regAddr b r) v

/-- `rp[j]` of bank `b` (10_state R23). -/
def pair (s : State) (b : BitVec 2) (p : RegPair) : Word := mkWord (reg s b p.highReg) (reg s b p.lowReg)

/-- `rp[j] <- v` in bank `b` (10_state R23). -/
def setPair (s : State) (b : BitVec 2) (p : RegPair) (v : Word) : State :=
  setReg (setReg s b p.lowReg (loByte v)) b p.highReg (hiByte v)

/-- `next`: the address after an instruction of `len` bytes (00_scope R10; 10_state R29; 92 D3). -/
def nextPc (s : State) (len : Addr) : Addr := s.pc + len

/-- The end of an instruction of `len` bytes that does not set PC (10_state R28); `hold` says whether it is one of
`HoldSet` (10_state R42; 60_exceptions R415; 92 D17). -/
def advance (s : State) (len : Addr) (hold : Bool := false) : State := { s with pc := nextPc s len, hold := hold }

/-- The end of an instruction that sets PC (10_state R28, R42). -/
def jump (s : State) (target : Addr) : State := { s with pc := target, hold := false }

/-- The outcome of an instruction that a fault stops, or not. -/
def outcome : Except Fault State → Result
  | .ok s => .next s
  | .error f => .fault f

/-- `Push8(v)` (47_call R300; 20_memory R88; 92 D7). -/
def push8 (s : State) (v : Byte) : Except Fault State :=
  let a := s.sp - 1
  if inIhram s.cfg a then .ok (putByte (withSp s a) a v) else .error (.stackOutside s.pc a)

/-- `Pop8()` (47_call R301; 20_memory R88; 92 D7). -/
def pop8 (s : State) : Except Fault (Byte × State) :=
  if inIhram s.cfg s.sp then .ok (byteAt s s.sp, withSp s (s.sp + 1)) else .error (.stackOutside s.pc s.sp)

/-- Push a word, its high byte first (47_call R302). -/
def push16 (s : State) (v : Word) : Except Fault State := do
  let s ← push8 s (hiByte v)
  push8 s (loByte v)

/-- Pop a word, its low byte first (47_call R302). -/
def pop16 (s : State) : Except Fault (Word × State) := do
  let (lo, s) ← pop8 s
  let (hi, s) ← pop8 s
  pure (mkWord hi lo, s)

/-- IE, the interrupt enable flag (10_state R32). -/
def ieBit : BitVec 3 := 7

/-- Entering a handler through the vector table, by BRK and by interrupt acknowledgement (60_exceptions R404, R410; 92
D12): push PSW and the return address, clear IE, make the changes `mark` that only an acknowledgement makes, take PC
from the vector. The bytes pushed lie in the internal high-speed RAM, so PSW is still as it was before. -/
def enterVector (s : State) (ret : Addr) (vector : Addr) (mark : State → State) : Except Fault State := do
  let s ← push8 s s.psw
  let s ← push16 s ret
  let s := mark (withPsw s (withBit s.psw ieBit false))
  let (target, s) ← load16 s vector
  pure (jump s target)

/-- Returning from a handler, by RETI and RETB (60_exceptions R416; 47_call R308, R309): pop PC and PSW, and hold
interrupts for one instruction. -/
def returnFromVector (s : State) : Except Fault State := do
  let (ret, s) ← pop16 s
  let (p, s) ← pop8 s
  pure { jump (setPsw s p) ret with hold := true }

end Sys2Proof.Machine
end

