-- ==== Sys2Proof/Machine/Flags.lean ====
section
/-! DEFINITION. The flag computations (42_operation_8 R199, 43_operation_16 R223, 44_muldiv_incdec R235, R236,
45_rotate_bcd R258, R259) and the writing of flags to PSW (10_state R30, R33). Arithmetic is on integers and is then
narrowed (00_scope R9). -/

namespace Sys2Proof.Machine

/-- The bit of CY in PSW (10_state R30). -/
def cyBit : BitVec 3 := 0

/-- The bit of AC in PSW (10_state R30). -/
def acBit : BitVec 3 := 4

/-- The bit of Z in PSW (10_state R30). -/
def zBit : BitVec 3 := 6

/-- CY (10_state R30). -/
def cy (s : State) : Bool := bitOf s.psw cyBit

/-- AC (10_state R30). -/
def ac (s : State) : Bool := bitOf s.psw acBit

/-- Z (10_state R30). -/
def zf (s : State) : Bool := bitOf s.psw zBit

/-- The flags an instruction writes; `none` is unchanged (10_state R33). -/
structure FlagUpdate where
  z : Option Bool := none
  ac : Option Bool := none
  cy : Option Bool := none
  deriving DecidableEq, Repr

/-- A byte with one bit written, or unchanged. -/
def writeFlag (p : Byte) (n : BitVec 3) : Option Bool → Byte
  | none => p
  | some b => withBit p n b

/-- PSW with flags written; every other bit keeps its value (42_operation_8 R199). -/
def flagsInto (p : Byte) (u : FlagUpdate) : Byte :=
  writeFlag (writeFlag (writeFlag p zBit u.z) acBit u.ac) cyBit u.cy

/-- Write an instruction's flags (42_operation_8 R190). -/
def setFlags (s : State) (u : FlagUpdate) : State := withPsw s (flagsInto s.psw u)

/-- `AddFlags(d, s, c)` (42_operation_8 R199). -/
def addFlags (d s : Byte) (c : Bool) : Byte × FlagUpdate :=
  let t := d.toNat + s.toNat + c.toNat
  let result := BitVec.ofNat 8 t
  (result, { z := some (result == 0), ac := some (15 < d.toNat % 16 + s.toNat % 16 + c.toNat), cy := some (255 < t) })

/-- `SubFlags(d, s, c)` (42_operation_8 R199). -/
def subFlags (d s : Byte) (c : Bool) : Byte × FlagUpdate :=
  let t : Int := (d.toNat : Int) - s.toNat - c.toNat
  let result := BitVec.ofInt 8 t
  (result, { z := some (result == 0), ac := some (((d.toNat % 16 : Nat) : Int) - (s.toNat % 16 : Nat) - c.toNat < 0),
             cy := some (t < 0) })

/-- `LogicFlags(result)` (42_operation_8 R199). -/
def logicFlags (result : Byte) : Byte × FlagUpdate := (result, { z := some (result == 0) })

/-- The eight 8-bit operations (42_operation_8 R191 to R198). -/
inductive AluOp where
  | add | addc | sub | subc | and | or | xor | cmp
  deriving DecidableEq, Repr

/-- The result and flags of an 8-bit operation on destination `d`, source `s` and carry `c` (42_operation_8 R191 to
R198). -/
def aluEval (op : AluOp) (d s : Byte) (c : Bool) : Byte × FlagUpdate :=
  match op with
  | .add => addFlags d s false
  | .addc => addFlags d s c
  | .sub => subFlags d s false
  | .subc => subFlags d s c
  | .and => logicFlags (d &&& s)
  | .or => logicFlags (d ||| s)
  | .xor => logicFlags (d ^^^ s)
  | .cmp => subFlags d s false

/-- CMP stores no result (42_operation_8 R190, R198). -/
def aluStores : AluOp → Bool
  | .cmp => false
  | _ => true

/-- `AddFlagsW(d, s)`, with the AC flag `u` that the spec leaves undefined (43_operation_16 R223). -/
def addFlagsW (d s : Word) (u : Bool) : Word × FlagUpdate :=
  let t := d.toNat + s.toNat
  let result := BitVec.ofNat 16 t
  (result, { z := some (result == 0), ac := some u, cy := some (65535 < t) })

/-- `SubFlagsW(d, s)`, with the AC flag `u` that the spec leaves undefined (43_operation_16 R223). -/
def subFlagsW (d s : Word) (u : Bool) : Word × FlagUpdate :=
  let t : Int := (d.toNat : Int) - s.toNat
  let result := BitVec.ofInt 16 t
  (result, { z := some (result == 0), ac := some u, cy := some (t < 0) })

/-- The increment of INC, which leaves CY alone (44_muldiv_incdec R235). -/
def incFlags (d : Byte) : Byte × FlagUpdate :=
  let result := BitVec.ofNat 8 (d.toNat + 1)
  (result, { z := some (result == 0), ac := some (d.toNat % 16 == 15) })

/-- The decrement of DEC, which leaves CY alone (44_muldiv_incdec R236). -/
def decFlags (d : Byte) : Byte × FlagUpdate :=
  let result := BitVec.ofInt 8 ((d.toNat : Int) - 1)
  (result, { z := some (result == 0), ac := some (d.toNat % 16 == 0) })

/-- The row of ADJBA's table: the number added, then CY and AC (45_rotate_bcd R258). -/
def adjbaRow (lo hi : Nat) (ac cy : Bool) : Nat × Bool × Bool :=
  if ac then
    if hi ≤ 9 ∧ cy = false then (0x06, false, false) else (0x66, true, false)
  else if lo ≤ 9 then
    if hi ≤ 9 ∧ cy = false then (0x00, false, false) else (0x60, true, false)
  else
    if hi < 9 ∧ cy = false then (0x06, false, true) else (0x66, true, true)

/-- ADJBA on A = `a` (45_rotate_bcd R258). -/
def adjbaFlags (a : Byte) (ac cy : Bool) : Byte × FlagUpdate :=
  let row := adjbaRow (a.toNat % 16) (a.toNat / 16) ac cy
  let result := BitVec.ofNat 8 (a.toNat + row.1)
  (result, { z := some (result == 0), ac := some row.2.2, cy := some row.2.1 })

/-- The row of ADJBS's table: the number subtracted, then CY and AC (45_rotate_bcd R259). -/
def adjbsRow (ac cy : Bool) : Nat × Bool × Bool :=
  match ac, cy with
  | false, false => (0x00, false, false)
  | false, true => (0x60, true, false)
  | true, false => (0x06, false, false)
  | true, true => (0x66, true, false)

/-- ADJBS on A = `a` (45_rotate_bcd R259). -/
def adjbsFlags (a : Byte) (ac cy : Bool) : Byte × FlagUpdate :=
  let row := adjbsRow ac cy
  let result := BitVec.ofInt 8 ((a.toNat : Int) - row.1)
  (result, { z := some (result == 0), ac := some row.2.2, cy := some row.2.1 })

end Sys2Proof.Machine
end

