-- ==== Sys2Proof/Machine/Alu16.lean ====
section
/-! DEFINITION. 16-bit operations: ADDW, SUBW, CMPW (43_operation_16 R220 to R224). -/

namespace Sys2Proof.Machine

/-- Write AX, if `stores`, and the flags of a 16-bit operation. Its AC flag is the spec's undefined one: it was taken
from `Config.acUndef` at `freeCount`, which now moves on (43 R223; notes/assumptions/17.md). -/
def aluW (e : Word × FlagUpdate) (stores : Bool) (len : Addr) (s : State) : State :=
  let t := setFlags (if stores then setPair s (bank s) .ax e.1 else s) e.2
  { advance t len with freeCount := s.freeCount + 1 }

/-- `ADDW AX,#word` (43 R220). -/
def execAddwAxWord (w : Word) (s : State) : Result :=
  .next (aluW (addFlagsW (pair s (bank s) .ax) w (Config.acUndef s.freeCount)) true 3 s)

/-- `SUBW AX,#word` (43 R221). -/
def execSubwAxWord (w : Word) (s : State) : Result :=
  .next (aluW (subFlagsW (pair s (bank s) .ax) w (Config.acUndef s.freeCount)) true 3 s)

/-- `CMPW AX,#word` (43 R222). -/
def execCmpwAxWord (w : Word) (s : State) : Result :=
  .next (aluW (subFlagsW (pair s (bank s) .ax) w (Config.acUndef s.freeCount)) false 3 s)

end Sys2Proof.Machine
end

