-- ==== Sys2Proof/Machine/Operands.lean ====
section
/-! DEFINITION. Every memory and bit operand form (20_memory R82 to R89, R95; 46_bit R270). -/

namespace Sys2Proof.Machine

/-- The operand forms that name a byte or word of memory (20_memory R82 to R87). -/
inductive MemOperand where
  /-- `saddr`, `saddrp`: short direct. -/
  | saddr (o : Byte)
  /-- `sfr`, `sfrp`: special function register. -/
  | sfr (o : Byte)
  /-- `!addr16`: direct. -/
  | abs (a : Addr)
  /-- `[DE]`: register indirect. -/
  | de
  /-- `[HL]`: register indirect. -/
  | hl
  /-- `[HL+byte]`: based. -/
  | hlByte (d : Byte)
  /-- `[HL+B]`: based indexed. -/
  | hlB
  /-- `[HL+C]`: based indexed. -/
  | hlC
  deriving DecidableEq, Repr

/-- The effective address of saddr-offset `o` (20_memory R82). -/
def saddrAddr (o : Byte) : Addr := if 0x20 ≤ o.toNat then 0xFE00 + zext16 o else 0xFF00 + zext16 o

/-- The effective address of sfr-offset `o` (20_memory R83). -/
def sfrAddr (o : Byte) : Addr := 0xFF00 + zext16 o

/-- The effective address of an operand, with the registers of the selected bank (20_memory R82 to R87). -/
def effAddr (s : State) : MemOperand → Addr
  | .saddr o => saddrAddr o
  | .sfr o => sfrAddr o
  | .abs a => a
  | .de => pair s (bank s) .de
  | .hl => pair s (bank s) .hl
  | .hlByte d => pair s (bank s) .hl + zext16 d
  | .hlB => pair s (bank s) .hl + zext16 (reg s (bank s) .b)
  | .hlC => pair s (bank s) .hl + zext16 (reg s (bank s) .c)

/-- Offsets D0H to DFH name no sfr operand (20_memory R83). -/
def sfrOffsetInvalid (o : Byte) : Bool := 0xD0 ≤ o.toNat && o.toNat ≤ 0xDF

/-- The address an instruction accesses for a byte operand (20_memory R83; 92 D5). -/
def byteOperand (s : State) (m : MemOperand) : Except Fault Addr :=
  match m with
  | .sfr o => if sfrOffsetInvalid o then .error (.sfrOffset s.pc (sfrAddr o)) else .ok (effAddr s m)
  | _ => .ok (effAddr s m)

/-- The address an instruction accesses for a word operand, which must be even (20_memory R77; 92 D4). DESIGN CHOICE,
safe: an odd sfr-offset of D1H to DFH is both invalid (20_memory R83) and odd, and 60_exceptions R401 does not say which
is reported; it is `sfrOffset` (notes/assumptions/10.md). -/
def wordOperand (s : State) (m : MemOperand) : Except Fault Addr := do
  let a ← byteOperand s m
  evenAddress s a

/-- The byte operand's value, read as part of an instruction that accesses the unit `u`, and the state after the read. -/
def loadOperand (s : State) (u : AccessUnit) (m : MemOperand) : Except Fault (Byte × State) := do
  let a ← byteOperand s m
  load8 s u a

/-- The five kinds of byte that hold a bit operand (46_bit R270). -/
inductive BitOperand where
  | mem (m : MemOperand)
  | a
  | psw
  deriving DecidableEq, Repr

/-- The byte of a bit operand, and the state after it is read (46_bit R270). -/
def bitByte (s : State) : BitOperand → Except Fault (Byte × State)
  | .mem m => loadOperand s .bit m
  | .a => .ok (reg s (bank s) .a, s)
  | .psw => .ok (s.psw, s)

/-- `ReadBit(operand, n)`, and the state after it (46_bit R270). -/
def readBit (s : State) (x : BitOperand) (n : BitVec 3) : Except Fault (Bool × State) := do
  let (t, s) ← bitByte s x
  pure (bitOf t n, s)

/-- The byte of a bit operand replaced (46_bit R270). -/
def putBitByte (s : State) (x : BitOperand) (v : Byte) : Except Fault State :=
  match x with
  | .mem m => do
    let a ← byteOperand s m
    store8 s .bit a v
  | .a => .ok (setReg s (bank s) .a v)
  | .psw => .ok (setPsw s v)

/-- `WriteBit(operand, n, b)`: a read-modify-write of the whole byte (46_bit R270; 93 G3). -/
def writeBit (s : State) (x : BitOperand) (n : BitVec 3) (b : Bool) : Except Fault State := do
  let (t, s) ← bitByte s x
  putBitByte s x (withBit t n b)

/-- `RelTarget(next, jdisp)` (48_branch R330; 20_memory R95). -/
def relTarget (next : Addr) (j : Byte) : Addr := next + sext16 j

end Sys2Proof.Machine
end

