-- ==== Sys2Proof/Machine/Alu8.lean ====
section
/-! DEFINITION. 8-bit operations: ADD, ADDC, SUB, SUBC, AND, OR, XOR, CMP (42_operation_8 R190 to R199). -/

namespace Sys2Proof.Machine

/-- An 8-bit operation whose destination is a register; the result is written before the flags (42 R190). -/
def aluOnReg (op : AluOp) (r : Reg8) (src : Byte) (len : Addr) (s : State) : Result :=
  let e := aluEval op (reg s (bank s) r) src (cy s)
  .next (advance (setFlags (if aluStores op then setReg s (bank s) r e.1 else s) e.2) len)

/-- An 8-bit operation on A whose source is in memory (42 R190). -/
def aluFromMem (op : AluOp) (m : MemOperand) (len : Addr) (s : State) : Result :=
  outcome (do
    let (v, s) ← loadOperand s .byte m
    let e := aluEval op (reg s (bank s) .a) v (cy s)
    pure (advance (setFlags (if aluStores op then setReg s (bank s) .a e.1 else s) e.2) len))

/-- An 8-bit operation whose destination is in memory. Where that byte is PSW, the result is stored first and the flags
go on top (42 R190; 92 D1). CMP makes no write access (42 R198). -/
def aluOnMem (op : AluOp) (m : MemOperand) (src : Byte) (len : Addr) (s : State) : Result :=
  outcome (do
    let a ← byteOperand s m
    let (d, s) ← load8 s .byte a
    let e := aluEval op d src (cy s)
    let t ← if aluStores op then store8 s .byte a e.1 else .ok s
    pure (advance (setFlags t e.2) len))

/-- `ADD A,#byte` (42 R191). -/
def execAddAImm (d : Byte) (s : State) : Result := aluOnReg .add .a d 2 s

/-- `ADD saddr,#byte` (42 R191). -/
def execAddSaddrImm (o : Byte) (d : Byte) (s : State) : Result := aluOnMem .add (.saddr o) d 3 s

/-- `ADD A,r` (42 R191). -/
def execAddAR (r : Reg8) (s : State) : Result := aluOnReg .add .a (reg s (bank s) r) 2 s

/-- `ADD r,A` (42 R191). -/
def execAddRA (r : Reg8) (s : State) : Result := aluOnReg .add r (reg s (bank s) .a) 2 s

/-- `ADD A,saddr` (42 R191). -/
def execAddASaddr (o : Byte) (s : State) : Result := aluFromMem .add (.saddr o) 2 s

/-- `ADD A,!addr16` (42 R191). -/
def execAddAAbs (a : Addr) (s : State) : Result := aluFromMem .add (.abs a) 3 s

/-- `ADD A,[HL]` (42 R191). -/
def execAddAHl (s : State) : Result := aluFromMem .add .hl 1 s

/-- `ADD A,[HL+byte]` (42 R191). -/
def execAddAHlByte (d : Byte) (s : State) : Result := aluFromMem .add (.hlByte d) 2 s

/-- `ADD A,[HL+B]` (42 R191). -/
def execAddAHlB (s : State) : Result := aluFromMem .add .hlB 2 s

/-- `ADD A,[HL+C]` (42 R191). -/
def execAddAHlC (s : State) : Result := aluFromMem .add .hlC 2 s

/-- `ADDC A,#byte` (42 R192). -/
def execAddcAImm (d : Byte) (s : State) : Result := aluOnReg .addc .a d 2 s

/-- `ADDC saddr,#byte` (42 R192). -/
def execAddcSaddrImm (o : Byte) (d : Byte) (s : State) : Result := aluOnMem .addc (.saddr o) d 3 s

/-- `ADDC A,r` (42 R192). -/
def execAddcAR (r : Reg8) (s : State) : Result := aluOnReg .addc .a (reg s (bank s) r) 2 s

/-- `ADDC r,A` (42 R192). -/
def execAddcRA (r : Reg8) (s : State) : Result := aluOnReg .addc r (reg s (bank s) .a) 2 s

/-- `ADDC A,saddr` (42 R192). -/
def execAddcASaddr (o : Byte) (s : State) : Result := aluFromMem .addc (.saddr o) 2 s

/-- `ADDC A,!addr16` (42 R192). -/
def execAddcAAbs (a : Addr) (s : State) : Result := aluFromMem .addc (.abs a) 3 s

/-- `ADDC A,[HL]` (42 R192). -/
def execAddcAHl (s : State) : Result := aluFromMem .addc .hl 1 s

/-- `ADDC A,[HL+byte]` (42 R192). -/
def execAddcAHlByte (d : Byte) (s : State) : Result := aluFromMem .addc (.hlByte d) 2 s

/-- `ADDC A,[HL+B]` (42 R192). -/
def execAddcAHlB (s : State) : Result := aluFromMem .addc .hlB 2 s

/-- `ADDC A,[HL+C]` (42 R192). -/
def execAddcAHlC (s : State) : Result := aluFromMem .addc .hlC 2 s

/-- `SUB A,#byte` (42 R193). -/
def execSubAImm (d : Byte) (s : State) : Result := aluOnReg .sub .a d 2 s

/-- `SUB saddr,#byte` (42 R193). -/
def execSubSaddrImm (o : Byte) (d : Byte) (s : State) : Result := aluOnMem .sub (.saddr o) d 3 s

/-- `SUB A,r` (42 R193). -/
def execSubAR (r : Reg8) (s : State) : Result := aluOnReg .sub .a (reg s (bank s) r) 2 s

/-- `SUB r,A` (42 R193). -/
def execSubRA (r : Reg8) (s : State) : Result := aluOnReg .sub r (reg s (bank s) .a) 2 s

/-- `SUB A,saddr` (42 R193). -/
def execSubASaddr (o : Byte) (s : State) : Result := aluFromMem .sub (.saddr o) 2 s

/-- `SUB A,!addr16` (42 R193). -/
def execSubAAbs (a : Addr) (s : State) : Result := aluFromMem .sub (.abs a) 3 s

/-- `SUB A,[HL]` (42 R193). -/
def execSubAHl (s : State) : Result := aluFromMem .sub .hl 1 s

/-- `SUB A,[HL+byte]` (42 R193). -/
def execSubAHlByte (d : Byte) (s : State) : Result := aluFromMem .sub (.hlByte d) 2 s

/-- `SUB A,[HL+B]` (42 R193). -/
def execSubAHlB (s : State) : Result := aluFromMem .sub .hlB 2 s

/-- `SUB A,[HL+C]` (42 R193). -/
def execSubAHlC (s : State) : Result := aluFromMem .sub .hlC 2 s

/-- `SUBC A,#byte` (42 R194). -/
def execSubcAImm (d : Byte) (s : State) : Result := aluOnReg .subc .a d 2 s

/-- `SUBC saddr,#byte` (42 R194). -/
def execSubcSaddrImm (o : Byte) (d : Byte) (s : State) : Result := aluOnMem .subc (.saddr o) d 3 s

/-- `SUBC A,r` (42 R194). -/
def execSubcAR (r : Reg8) (s : State) : Result := aluOnReg .subc .a (reg s (bank s) r) 2 s

/-- `SUBC r,A` (42 R194). -/
def execSubcRA (r : Reg8) (s : State) : Result := aluOnReg .subc r (reg s (bank s) .a) 2 s

/-- `SUBC A,saddr` (42 R194). -/
def execSubcASaddr (o : Byte) (s : State) : Result := aluFromMem .subc (.saddr o) 2 s

/-- `SUBC A,!addr16` (42 R194). -/
def execSubcAAbs (a : Addr) (s : State) : Result := aluFromMem .subc (.abs a) 3 s

/-- `SUBC A,[HL]` (42 R194). -/
def execSubcAHl (s : State) : Result := aluFromMem .subc .hl 1 s

/-- `SUBC A,[HL+byte]` (42 R194). -/
def execSubcAHlByte (d : Byte) (s : State) : Result := aluFromMem .subc (.hlByte d) 2 s

/-- `SUBC A,[HL+B]` (42 R194). -/
def execSubcAHlB (s : State) : Result := aluFromMem .subc .hlB 2 s

/-- `SUBC A,[HL+C]` (42 R194). -/
def execSubcAHlC (s : State) : Result := aluFromMem .subc .hlC 2 s

/-- `AND A,#byte` (42 R195). -/
def execAndAImm (d : Byte) (s : State) : Result := aluOnReg .and .a d 2 s

/-- `AND saddr,#byte` (42 R195). -/
def execAndSaddrImm (o : Byte) (d : Byte) (s : State) : Result := aluOnMem .and (.saddr o) d 3 s

/-- `AND A,r` (42 R195). -/
def execAndAR (r : Reg8) (s : State) : Result := aluOnReg .and .a (reg s (bank s) r) 2 s

/-- `AND r,A` (42 R195). -/
def execAndRA (r : Reg8) (s : State) : Result := aluOnReg .and r (reg s (bank s) .a) 2 s

/-- `AND A,saddr` (42 R195). -/
def execAndASaddr (o : Byte) (s : State) : Result := aluFromMem .and (.saddr o) 2 s

/-- `AND A,!addr16` (42 R195). -/
def execAndAAbs (a : Addr) (s : State) : Result := aluFromMem .and (.abs a) 3 s

/-- `AND A,[HL]` (42 R195). -/
def execAndAHl (s : State) : Result := aluFromMem .and .hl 1 s

/-- `AND A,[HL+byte]` (42 R195). -/
def execAndAHlByte (d : Byte) (s : State) : Result := aluFromMem .and (.hlByte d) 2 s

/-- `AND A,[HL+B]` (42 R195). -/
def execAndAHlB (s : State) : Result := aluFromMem .and .hlB 2 s

/-- `AND A,[HL+C]` (42 R195). -/
def execAndAHlC (s : State) : Result := aluFromMem .and .hlC 2 s

/-- `OR A,#byte` (42 R196). -/
def execOrAImm (d : Byte) (s : State) : Result := aluOnReg .or .a d 2 s

/-- `OR saddr,#byte` (42 R196). -/
def execOrSaddrImm (o : Byte) (d : Byte) (s : State) : Result := aluOnMem .or (.saddr o) d 3 s

/-- `OR A,r` (42 R196). -/
def execOrAR (r : Reg8) (s : State) : Result := aluOnReg .or .a (reg s (bank s) r) 2 s

/-- `OR r,A` (42 R196). -/
def execOrRA (r : Reg8) (s : State) : Result := aluOnReg .or r (reg s (bank s) .a) 2 s

/-- `OR A,saddr` (42 R196). -/
def execOrASaddr (o : Byte) (s : State) : Result := aluFromMem .or (.saddr o) 2 s

/-- `OR A,!addr16` (42 R196). -/
def execOrAAbs (a : Addr) (s : State) : Result := aluFromMem .or (.abs a) 3 s

/-- `OR A,[HL]` (42 R196). -/
def execOrAHl (s : State) : Result := aluFromMem .or .hl 1 s

/-- `OR A,[HL+byte]` (42 R196). -/
def execOrAHlByte (d : Byte) (s : State) : Result := aluFromMem .or (.hlByte d) 2 s

/-- `OR A,[HL+B]` (42 R196). -/
def execOrAHlB (s : State) : Result := aluFromMem .or .hlB 2 s

/-- `OR A,[HL+C]` (42 R196). -/
def execOrAHlC (s : State) : Result := aluFromMem .or .hlC 2 s

/-- `XOR A,#byte` (42 R197). -/
def execXorAImm (d : Byte) (s : State) : Result := aluOnReg .xor .a d 2 s

/-- `XOR saddr,#byte` (42 R197). -/
def execXorSaddrImm (o : Byte) (d : Byte) (s : State) : Result := aluOnMem .xor (.saddr o) d 3 s

/-- `XOR A,r` (42 R197). -/
def execXorAR (r : Reg8) (s : State) : Result := aluOnReg .xor .a (reg s (bank s) r) 2 s

/-- `XOR r,A` (42 R197). -/
def execXorRA (r : Reg8) (s : State) : Result := aluOnReg .xor r (reg s (bank s) .a) 2 s

/-- `XOR A,saddr` (42 R197). -/
def execXorASaddr (o : Byte) (s : State) : Result := aluFromMem .xor (.saddr o) 2 s

/-- `XOR A,!addr16` (42 R197). -/
def execXorAAbs (a : Addr) (s : State) : Result := aluFromMem .xor (.abs a) 3 s

/-- `XOR A,[HL]` (42 R197). -/
def execXorAHl (s : State) : Result := aluFromMem .xor .hl 1 s

/-- `XOR A,[HL+byte]` (42 R197). -/
def execXorAHlByte (d : Byte) (s : State) : Result := aluFromMem .xor (.hlByte d) 2 s

/-- `XOR A,[HL+B]` (42 R197). -/
def execXorAHlB (s : State) : Result := aluFromMem .xor .hlB 2 s

/-- `XOR A,[HL+C]` (42 R197). -/
def execXorAHlC (s : State) : Result := aluFromMem .xor .hlC 2 s

/-- `CMP A,#byte` (42 R198). -/
def execCmpAImm (d : Byte) (s : State) : Result := aluOnReg .cmp .a d 2 s

/-- `CMP saddr,#byte` (42 R198). -/
def execCmpSaddrImm (o : Byte) (d : Byte) (s : State) : Result := aluOnMem .cmp (.saddr o) d 3 s

/-- `CMP A,r` (42 R198). -/
def execCmpAR (r : Reg8) (s : State) : Result := aluOnReg .cmp .a (reg s (bank s) r) 2 s

/-- `CMP r,A` (42 R198). -/
def execCmpRA (r : Reg8) (s : State) : Result := aluOnReg .cmp r (reg s (bank s) .a) 2 s

/-- `CMP A,saddr` (42 R198). -/
def execCmpASaddr (o : Byte) (s : State) : Result := aluFromMem .cmp (.saddr o) 2 s

/-- `CMP A,!addr16` (42 R198). -/
def execCmpAAbs (a : Addr) (s : State) : Result := aluFromMem .cmp (.abs a) 3 s

/-- `CMP A,[HL]` (42 R198). -/
def execCmpAHl (s : State) : Result := aluFromMem .cmp .hl 1 s

/-- `CMP A,[HL+byte]` (42 R198). -/
def execCmpAHlByte (d : Byte) (s : State) : Result := aluFromMem .cmp (.hlByte d) 2 s

/-- `CMP A,[HL+B]` (42 R198). -/
def execCmpAHlB (s : State) : Result := aluFromMem .cmp .hlB 2 s

/-- `CMP A,[HL+C]` (42 R198). -/
def execCmpAHlC (s : State) : Result := aluFromMem .cmp .hlC 2 s

end Sys2Proof.Machine
end

