-- ==== Sys2Proof/Machine/BitOps.lean ====
section
/-! DEFINITION. Bit manipulation (46_bit R270 to R282). -/

namespace Sys2Proof.Machine

/-- MOV1, AND1, OR1, XOR1 with CY as destination: `f` of CY and the bit is the new CY (46 R271, R274 to R276). -/
def bitToCy (f : Bool → Bool → Bool) (x : BitOperand) (n : BitVec 3) (len : Addr) (s : State) : Result :=
  outcome (do
    let (v, s) ← readBit s x n
    pure (advance (setFlags s { cy := some (f (cy s) v) }) len))

/-- MOV1 from CY, SET1, CLR1: write a bit (46 R272, R278, R279); `hold` where the bytes are those of EI or DI. -/
def bitFromValue (x : BitOperand) (n : BitVec 3) (v : Bool) (len : Addr) (hold : Bool) (s : State) : Result :=
  outcome (do
    let t ← writeBit s x n v
    pure (advance t len hold))

/-- `MOV1 CY,saddr.bit` (46 R271). -/
def execMov1CySaddrBit (o : Byte) (n : BitVec 3) (s : State) : Result :=
  bitToCy (fun _ v => v) (.mem (.saddr o)) n 3 s

/-- `MOV1 CY,sfr.bit` (46 R271). -/
def execMov1CySfrBit (o : Byte) (n : BitVec 3) (s : State) : Result := bitToCy (fun _ v => v) (.mem (.sfr o)) n 3 s

/-- `MOV1 CY,A.bit` (46 R271). -/
def execMov1CyABit (n : BitVec 3) (s : State) : Result := bitToCy (fun _ v => v) .a n 2 s

/-- `MOV1 CY,PSW.bit` (46 R271). -/
def execMov1CyPswBit (n : BitVec 3) (s : State) : Result := bitToCy (fun _ v => v) .psw n 3 s

/-- `MOV1 CY,[HL].bit` (46 R271). -/
def execMov1CyHlBit (n : BitVec 3) (s : State) : Result := bitToCy (fun _ v => v) (.mem .hl) n 2 s

/-- `MOV1 saddr.bit,CY` (46 R272). -/
def execMov1SaddrBitCy (o : Byte) (n : BitVec 3) (s : State) : Result :=
  bitFromValue (.mem (.saddr o)) n (cy s) 3 false s

/-- `MOV1 sfr.bit,CY` (46 R272). -/
def execMov1SfrBitCy (o : Byte) (n : BitVec 3) (s : State) : Result := bitFromValue (.mem (.sfr o)) n (cy s) 3 false s

/-- `MOV1 A.bit,CY` (46 R272). -/
def execMov1ABitCy (n : BitVec 3) (s : State) : Result := bitFromValue .a n (cy s) 2 false s

/-- `MOV1 PSW.bit,CY` (46 R272). -/
def execMov1PswBitCy (n : BitVec 3) (s : State) : Result := bitFromValue .psw n (cy s) 3 false s

/-- `MOV1 [HL].bit,CY` (46 R272). -/
def execMov1HlBitCy (n : BitVec 3) (s : State) : Result := bitFromValue (.mem .hl) n (cy s) 2 false s

/-- `AND1 CY,saddr.bit` (46 R274). -/
def execAnd1CySaddrBit (o : Byte) (n : BitVec 3) (s : State) : Result :=
  bitToCy (fun c v => c && v) (.mem (.saddr o)) n 3 s

/-- `AND1 CY,sfr.bit` (46 R274). -/
def execAnd1CySfrBit (o : Byte) (n : BitVec 3) (s : State) : Result :=
  bitToCy (fun c v => c && v) (.mem (.sfr o)) n 3 s

/-- `AND1 CY,A.bit` (46 R274). -/
def execAnd1CyABit (n : BitVec 3) (s : State) : Result := bitToCy (fun c v => c && v) .a n 2 s

/-- `AND1 CY,PSW.bit` (46 R274). -/
def execAnd1CyPswBit (n : BitVec 3) (s : State) : Result := bitToCy (fun c v => c && v) .psw n 3 s

/-- `AND1 CY,[HL].bit` (46 R274). -/
def execAnd1CyHlBit (n : BitVec 3) (s : State) : Result := bitToCy (fun c v => c && v) (.mem .hl) n 2 s

/-- `OR1 CY,saddr.bit` (46 R275). -/
def execOr1CySaddrBit (o : Byte) (n : BitVec 3) (s : State) : Result :=
  bitToCy (fun c v => c || v) (.mem (.saddr o)) n 3 s

/-- `OR1 CY,sfr.bit` (46 R275). -/
def execOr1CySfrBit (o : Byte) (n : BitVec 3) (s : State) : Result :=
  bitToCy (fun c v => c || v) (.mem (.sfr o)) n 3 s

/-- `OR1 CY,A.bit` (46 R275). -/
def execOr1CyABit (n : BitVec 3) (s : State) : Result := bitToCy (fun c v => c || v) .a n 2 s

/-- `OR1 CY,PSW.bit` (46 R275). -/
def execOr1CyPswBit (n : BitVec 3) (s : State) : Result := bitToCy (fun c v => c || v) .psw n 3 s

/-- `OR1 CY,[HL].bit` (46 R275). -/
def execOr1CyHlBit (n : BitVec 3) (s : State) : Result := bitToCy (fun c v => c || v) (.mem .hl) n 2 s

/-- `XOR1 CY,saddr.bit` (46 R276). -/
def execXor1CySaddrBit (o : Byte) (n : BitVec 3) (s : State) : Result :=
  bitToCy (fun c v => c ^^ v) (.mem (.saddr o)) n 3 s

/-- `XOR1 CY,sfr.bit` (46 R276). -/
def execXor1CySfrBit (o : Byte) (n : BitVec 3) (s : State) : Result :=
  bitToCy (fun c v => c ^^ v) (.mem (.sfr o)) n 3 s

/-- `XOR1 CY,A.bit` (46 R276). -/
def execXor1CyABit (n : BitVec 3) (s : State) : Result := bitToCy (fun c v => c ^^ v) .a n 2 s

/-- `XOR1 CY,PSW.bit` (46 R276). -/
def execXor1CyPswBit (n : BitVec 3) (s : State) : Result := bitToCy (fun c v => c ^^ v) .psw n 3 s

/-- `XOR1 CY,[HL].bit` (46 R276). -/
def execXor1CyHlBit (n : BitVec 3) (s : State) : Result := bitToCy (fun c v => c ^^ v) (.mem .hl) n 2 s

/-- `SET1 saddr.bit` (46 R278). -/
def execSet1SaddrBit (o : Byte) (n : BitVec 3) (s : State) : Result :=
  bitFromValue (.mem (.saddr o)) n true 2 (o == pswOffset && n == 7) s

/-- `SET1 sfr.bit` (46 R278). -/
def execSet1SfrBit (o : Byte) (n : BitVec 3) (s : State) : Result := bitFromValue (.mem (.sfr o)) n true 3 false s

/-- `SET1 A.bit` (46 R278). -/
def execSet1ABit (n : BitVec 3) (s : State) : Result := bitFromValue .a n true 2 false s

/-- `SET1 PSW.bit` (46 R278). -/
def execSet1PswBit (n : BitVec 3) (s : State) : Result := bitFromValue .psw n true 2 (n == 7) s

/-- `SET1 [HL].bit` (46 R278). -/
def execSet1HlBit (n : BitVec 3) (s : State) : Result := bitFromValue (.mem .hl) n true 2 false s

/-- `CLR1 saddr.bit` (46 R279). -/
def execClr1SaddrBit (o : Byte) (n : BitVec 3) (s : State) : Result :=
  bitFromValue (.mem (.saddr o)) n false 2 (o == pswOffset && n == 7) s

/-- `CLR1 sfr.bit` (46 R279). -/
def execClr1SfrBit (o : Byte) (n : BitVec 3) (s : State) : Result := bitFromValue (.mem (.sfr o)) n false 3 false s

/-- `CLR1 A.bit` (46 R279). -/
def execClr1ABit (n : BitVec 3) (s : State) : Result := bitFromValue .a n false 2 false s

/-- `CLR1 PSW.bit` (46 R279). -/
def execClr1PswBit (n : BitVec 3) (s : State) : Result := bitFromValue .psw n false 2 (n == 7) s

/-- `CLR1 [HL].bit` (46 R279). -/
def execClr1HlBit (n : BitVec 3) (s : State) : Result := bitFromValue (.mem .hl) n false 2 false s

/-- `SET1 CY` (46 R280). -/
def execSet1Cy (s : State) : Result := .next (advance (setFlags s { cy := some true }) 1)

/-- `CLR1 CY` (46 R281). -/
def execClr1Cy (s : State) : Result := .next (advance (setFlags s { cy := some false }) 1)

/-- `NOT1 CY` (46 R282). -/
def execNot1Cy (s : State) : Result := .next (advance (setFlags s { cy := some (!cy s) }) 1)

end Sys2Proof.Machine
end

