-- ==== Sys2Proof/Machine/Branch.lean ====
section
/-! DEFINITION. Branches (48_branch R330 to R344). -/

namespace Sys2Proof.Machine

/-- A relative branch of `len` bytes, taken if `c` (48 R330). -/
def branchIf (c : Bool) (len : Addr) (j : Byte) (s : State) : State :=
  jump s (if c then relTarget (nextPc s len) j else nextPc s len)

/-- BT and BF: branch if the bit is `v`; the byte is read once and not written (48 R340, R341). -/
def branchOnBit (v : Bool) (x : BitOperand) (n : BitVec 3) (len : Addr) (j : Byte) (s : State) : Result :=
  outcome (do
    let (b, s) ← readBit s x n
    pure (branchIf (b == v) len j s))

/-- BTCLR: if the bit is 1, clear it and branch; if it is 0, nothing is written (48 R342). -/
def branchAndClear (x : BitOperand) (n : BitVec 3) (len : Addr) (j : Byte) (s : State) : Result :=
  outcome (do
    let (t, s) ← bitByte s x
    let u ← if bitOf t n then putBitByte s x (withBit t n false) else .ok s
    pure (branchIf (bitOf t n) len j u))

/-- DBNZ of B or C: decrement, branch if the result is not 0, no flag (48 R343). -/
def countReg (r : Reg8) (len : Addr) (j : Byte) (s : State) : State :=
  let v := reg s (bank s) r - 1
  branchIf (v != 0) len j (setReg s (bank s) r v)

/-- DBNZ of a byte of memory; the store happens whether or not the branch is taken (48 R343). -/
def countMem (m : MemOperand) (len : Addr) (j : Byte) (s : State) : Result :=
  outcome (do
    let a ← byteOperand s m
    let (d, s) ← load8 s .byte a
    let t ← store8 s .byte a (d - 1)
    pure (branchIf (d - 1 != 0) len j t))

/-- `BR !addr16` (48 R331). -/
def execBrAbs (a : Addr) (s : State) : Result := .next (jump s a)

/-- `BR $addr16` (48 R332). -/
def execBrRel (j : Byte) (s : State) : Result := .next (branchIf true 2 j s)

/-- `BR AX` (48 R333). -/
def execBrAx (s : State) : Result := .next (jump s (pair s (bank s) .ax))

/-- `BC $addr16` (48 R335). -/
def execBc (j : Byte) (s : State) : Result := .next (branchIf (cy s) 2 j s)

/-- `BNC $addr16` (48 R336). -/
def execBnc (j : Byte) (s : State) : Result := .next (branchIf (!cy s) 2 j s)

/-- `BZ $addr16` (48 R337). -/
def execBz (j : Byte) (s : State) : Result := .next (branchIf (zf s) 2 j s)

/-- `BNZ $addr16` (48 R338). -/
def execBnz (j : Byte) (s : State) : Result := .next (branchIf (!zf s) 2 j s)

/-- `BT saddr.bit,$addr16` (48 R340). -/
def execBtSaddrBit (o : Byte) (n : BitVec 3) (j : Byte) (s : State) : Result :=
  branchOnBit true (.mem (.saddr o)) n 3 j s

/-- `BT sfr.bit,$addr16` (48 R340). -/
def execBtSfrBit (o : Byte) (n : BitVec 3) (j : Byte) (s : State) : Result := branchOnBit true (.mem (.sfr o)) n 4 j s

/-- `BT A.bit,$addr16` (48 R340). -/
def execBtABit (n : BitVec 3) (j : Byte) (s : State) : Result := branchOnBit true .a n 3 j s

/-- `BT PSW.bit,$addr16` (48 R340). -/
def execBtPswBit (n : BitVec 3) (j : Byte) (s : State) : Result := branchOnBit true .psw n 3 j s

/-- `BT [HL].bit,$addr16` (48 R340). -/
def execBtHlBit (n : BitVec 3) (j : Byte) (s : State) : Result := branchOnBit true (.mem .hl) n 3 j s

/-- `BF saddr.bit,$addr16` (48 R341). -/
def execBfSaddrBit (o : Byte) (n : BitVec 3) (j : Byte) (s : State) : Result :=
  branchOnBit false (.mem (.saddr o)) n 4 j s

/-- `BF sfr.bit,$addr16` (48 R341). -/
def execBfSfrBit (o : Byte) (n : BitVec 3) (j : Byte) (s : State) : Result :=
  branchOnBit false (.mem (.sfr o)) n 4 j s

/-- `BF A.bit,$addr16` (48 R341). -/
def execBfABit (n : BitVec 3) (j : Byte) (s : State) : Result := branchOnBit false .a n 3 j s

/-- `BF PSW.bit,$addr16` (48 R341). -/
def execBfPswBit (n : BitVec 3) (j : Byte) (s : State) : Result := branchOnBit false .psw n 4 j s

/-- `BF [HL].bit,$addr16` (48 R341). -/
def execBfHlBit (n : BitVec 3) (j : Byte) (s : State) : Result := branchOnBit false (.mem .hl) n 3 j s

/-- `BTCLR saddr.bit,$addr16` (48 R342). -/
def execBtclrSaddrBit (o : Byte) (n : BitVec 3) (j : Byte) (s : State) : Result :=
  branchAndClear (.mem (.saddr o)) n 4 j s

/-- `BTCLR sfr.bit,$addr16` (48 R342). -/
def execBtclrSfrBit (o : Byte) (n : BitVec 3) (j : Byte) (s : State) : Result :=
  branchAndClear (.mem (.sfr o)) n 4 j s

/-- `BTCLR A.bit,$addr16` (48 R342). -/
def execBtclrABit (n : BitVec 3) (j : Byte) (s : State) : Result := branchAndClear .a n 3 j s

/-- `BTCLR PSW.bit,$addr16` (48 R342). -/
def execBtclrPswBit (n : BitVec 3) (j : Byte) (s : State) : Result := branchAndClear .psw n 4 j s

/-- `BTCLR [HL].bit,$addr16` (48 R342). -/
def execBtclrHlBit (n : BitVec 3) (j : Byte) (s : State) : Result := branchAndClear (.mem .hl) n 3 j s

/-- `DBNZ B,$addr16` (48 R343). -/
def execDbnzB (j : Byte) (s : State) : Result := .next (countReg .b 2 j s)

/-- `DBNZ C,$addr16` (48 R343). -/
def execDbnzC (j : Byte) (s : State) : Result := .next (countReg .c 2 j s)

/-- `DBNZ saddr,$addr16` (48 R343). -/
def execDbnzSaddr (o : Byte) (j : Byte) (s : State) : Result := countMem (.saddr o) 3 j s

end Sys2Proof.Machine
end

