-- ==== Sys2Proof/Machine/CallStack.lean ====
section
/-! DEFINITION. Call, return and stack manipulation (47_call_return_stack R300 to R315). -/

namespace Sys2Proof.Machine

/-- The address of BRK's entry of the vector table (60_exceptions R402). -/
def brkVector : Addr := 0x003E

/-- The address of entry `t` of the CALLT table: 0040H + 2t (47 R305). -/
def calltEntry (t : BitVec 5) : Addr := 0x0040 + 2 * t.setWidth 16

/-- CALL, CALLF, CALLT: push the address of the next instruction, high byte first, then set PC (47 R303 to R305). -/
def callTo (target : State → Except Fault (Addr × State)) (len : Addr) (s : State) : Result :=
  outcome (do
    let s ← push16 s (nextPc s len)
    let (a, s) ← target s
    pure (jump s a))

/-- `CALL !addr16` (47 R303). -/
def execCall (a : Addr) (s : State) : Result := callTo (fun s => .ok (a, s)) 3 s

/-- `CALLF !addr11` (47 R304). -/
def execCallf (f : BitVec 11) (s : State) : Result := callTo (fun s => .ok ((0b00001 : BitVec 5) ++ f, s)) 2 s

/-- `CALLT [addr5]` (47 R305). -/
def execCallt (t : BitVec 5) (s : State) : Result := callTo (fun s => load16 s (calltEntry t)) 1 s

/-- `BRK` (47 R306). -/
def execBrk (s : State) : Result := outcome (enterVector s (nextPc s 1) brkVector (fun t => t))

/-- `RET` (47 R307). -/
def execRet (s : State) : Result :=
  outcome (do
    let (ret, s) ← pop16 s
    pure (jump s ret))

/-- `RETB` (47 R309). -/
def execRetb (s : State) : Result := outcome (returnFromVector s)

/-- `RETI` (47 R308). -/
def execReti (s : State) : Result :=
  outcome (do
    let s ← returnFromVector s
    pure { s with nmis := false })

/-- `PUSH PSW` (47 R310). -/
def execPushPsw (s : State) : Result :=
  outcome (do
    let s ← push8 s s.psw
    pure (advance s 1))

/-- `PUSH rp` (47 R310). -/
def execPushRp (p : RegPair) (s : State) : Result :=
  outcome (do
    let s ← push16 s (pair s (bank s) p)
    pure (advance s 1))

/-- `POP PSW` (47 R311). -/
def execPopPsw (s : State) : Result :=
  outcome (do
    let (v, s) ← pop8 s
    pure (advance (setPsw s v) 1 true))

/-- `POP rp` (47 R311). -/
def execPopRp (p : RegPair) (s : State) : Result :=
  outcome (do
    let (v, t) ← pop16 s
    pure (advance (setPair t (bank s) p v) 1))

/-- `MOVW SP,#word` (47 R312). -/
def execMovwSpWord (w : Word) (s : State) : Result := .next (advance (withSp s w) 4)

/-- `MOVW SP,AX` (47 R313). -/
def execMovwSpAx (s : State) : Result := .next (advance (withSp s (pair s (bank s) .ax)) 2)

/-- `MOVW AX,SP` (47 R314). -/
def execMovwAxSp (s : State) : Result := .next (advance (setPair s (bank s) .ax s.sp) 2)

end Sys2Proof.Machine
end

