-- ==== Sys2Proof/Machine/Control.lean ====
section
/-! DEFINITION. CPU control: SEL, NOP, EI, DI, HALT, STOP (49_cpu_control R360 to R366). -/

namespace Sys2Proof.Machine

/-- `SEL RBn` (49 R360). -/
def execSel (b : BitVec 2) (s : State) : Result :=
  .next (advance (withPsw s (withBit (withBit s.psw 5 (b.getLsbD 1)) 3 (b.getLsbD 0))) 2)

/-- `NOP` (49 R361). -/
def execNop (s : State) : Result := .next (advance s 1)

/-- `EI` (49 R362). -/
def execEi (s : State) : Result := .next (advance (withPsw s (withBit s.psw ieBit true)) 2 true)

/-- `DI` (49 R363). -/
def execDi (s : State) : Result := .next (advance (withPsw s (withBit s.psw ieBit false)) 2 true)

/-- `HALT` (49 R364). -/
def execHalt (s : State) : Result := .next { advance s 2 with mode := .halt }

/-- `STOP` (49 R365). -/
def execStop (s : State) : Result := .next { advance s 2 with mode := .stop }

end Sys2Proof.Machine
end

