-- ==== Sys2Proof/Machine/MulDivIncDec.lean ====
section
/-! DEFINITION. Multiply, divide, increment and decrement (44_muldiv_incdec R230 to R238). -/

namespace Sys2Proof.Machine

/-- DIVUW's results from AX = `n` and C = `d`; a zero divisor gives AX = FFFFH and C = the old X (44 R231). -/
def divide (n : Word) (d : Byte) (s : State) : State :=
  if d = 0 then setReg (setPair s (bank s) .ax 0xFFFF) (bank s) .c (loByte n)
  else setReg (setPair s (bank s) .ax (BitVec.ofNat 16 (n.toNat / d.toNat))) (bank s) .c
    (BitVec.ofNat 8 (n.toNat % d.toNat))

/-- INC or DEC of a register (44 R235, R236). -/
def stepReg (f : Byte → Byte × FlagUpdate) (r : Reg8) (len : Addr) (s : State) : State :=
  let e := f (reg s (bank s) r)
  advance (setFlags (setReg s (bank s) r e.1) e.2) len

/-- INC or DEC of a byte of memory; where it is PSW, the flags go on top of the result (44 R235, R236; 92 D1). -/
def stepMem (f : Byte → Byte × FlagUpdate) (m : MemOperand) (len : Addr) (s : State) : Result :=
  outcome (do
    let a ← byteOperand s m
    let (d, s) ← load8 s .byte a
    let e := f d
    let t ← store8 s .byte a e.1
    pure (advance (setFlags t e.2) len))

/-- `MULU X` (44 R230). -/
def execMulu (s : State) : Result :=
  .next (advance (setPair s (bank s) .ax (BitVec.ofNat 16 ((reg s (bank s) .a).toNat * (reg s (bank s) .x).toNat))) 2)

/-- `DIVUW C` (44 R231). -/
def execDivuw (s : State) : Result := .next (advance (divide (pair s (bank s) .ax) (reg s (bank s) .c) s) 2)

/-- `INC r` (44 R235). -/
def execIncR (r : Reg8) (s : State) : Result := .next (stepReg incFlags r 1 s)

/-- `INC saddr` (44 R235). -/
def execIncSaddr (o : Byte) (s : State) : Result := stepMem incFlags (.saddr o) 2 s

/-- `DEC r` (44 R236). -/
def execDecR (r : Reg8) (s : State) : Result := .next (stepReg decFlags r 1 s)

/-- `DEC saddr` (44 R236). -/
def execDecSaddr (o : Byte) (s : State) : Result := stepMem decFlags (.saddr o) 2 s

/-- `INCW rp` (44 R237). -/
def execIncwRp (p : RegPair) (s : State) : Result :=
  .next (advance (setPair s (bank s) p (BitVec.ofNat 16 ((pair s (bank s) p).toNat + 1))) 1)

/-- `DECW rp` (44 R238). -/
def execDecwRp (p : RegPair) (s : State) : Result :=
  .next (advance (setPair s (bank s) p (BitVec.ofInt 16 (((pair s (bank s) p).toNat : Int) - 1))) 1)

end Sys2Proof.Machine
end

