-- ==== Sys2Proof/Machine/RotateBcd.lean ====
section
/-! DEFINITION. Rotates and decimal adjustment (45_rotate_bcd R250 to R259). -/

namespace Sys2Proof.Machine

/-- A one-bit rotate of A: `f` of A and CY is the new A, and bit `out` of the old A is the new CY (45 R250 to R253). -/
def rotateA (f : Byte → Bool → Byte) (out : BitVec 3) (len : Addr) (s : State) : State :=
  let a := reg s (bank s) .a
  advance (setFlags (setReg s (bank s) .a (f a (cy s))) { cy := some (bitOf a out) }) len

/-- Bits 3 to 0 of a byte (45 R254). -/
def lowDigit (v : Byte) : BitVec 4 := v.extractLsb' 0 4

/-- Bits 7 to 4 of a byte (45 R254). -/
def highDigit (v : Byte) : BitVec 4 := v.extractLsb' 4 4

/-- A digit rotate: `f` of A and the byte at HL is the new byte at HL, which is written first, and the new A. HL must
not point into the SFR area (45 R254, R255; 92 D8, D15). -/
def rotateDigits (f : Byte → Byte → Byte × Byte) (len : Addr) (s : State) : Result :=
  outcome (do
    let ea := effAddr s .hl
    if inSfrArea ea then .error (.rotateSfr s.pc ea)
    let (m, s) ← load8 s .byte ea
    let e := f (reg s (bank s) .a) m
    let t ← store8 s .byte ea e.1
    pure (advance (setReg t (bank s) .a e.2) len))

/-- Write A and the flags of a decimal adjustment (45 R258, R259). -/
def adjustA (e : Byte × FlagUpdate) (len : Addr) (s : State) : State :=
  advance (setFlags (setReg s (bank s) .a e.1) e.2) len

/-- `ROR A,1` (45 R250). -/
def execRor (s : State) : Result :=
  .next (rotateA (fun a _ => BitVec.ofBool (a.getLsbD 0) ++ a.extractLsb' 1 7) 0 1 s)

/-- `ROL A,1` (45 R251). -/
def execRol (s : State) : Result :=
  .next (rotateA (fun a _ => a.extractLsb' 0 7 ++ BitVec.ofBool (a.getLsbD 7)) 7 1 s)

/-- `RORC A,1` (45 R252). -/
def execRorc (s : State) : Result := .next (rotateA (fun a c => BitVec.ofBool c ++ a.extractLsb' 1 7) 0 1 s)

/-- `ROLC A,1` (45 R253). -/
def execRolc (s : State) : Result := .next (rotateA (fun a c => a.extractLsb' 0 7 ++ BitVec.ofBool c) 7 1 s)

/-- `ROR4 [HL]` (45 R254). -/
def execRor4 (s : State) : Result :=
  rotateDigits (fun a m => (lowDigit a ++ highDigit m, highDigit a ++ lowDigit m)) 2 s

/-- `ROL4 [HL]` (45 R255). -/
def execRol4 (s : State) : Result :=
  rotateDigits (fun a m => (lowDigit m ++ lowDigit a, highDigit a ++ highDigit m)) 2 s

/-- `ADJBA` (45 R258). -/
def execAdjba (s : State) : Result := .next (adjustA (adjbaFlags (reg s (bank s) .a) (ac s) (cy s)) 2 s)

/-- `ADJBS` (45 R259). -/
def execAdjbs (s : State) : Result := .next (adjustA (adjbsFlags (reg s (bank s) .a) (ac s) (cy s)) 2 s)

end Sys2Proof.Machine
end

