-- ==== Sys2Proof/Machine/Transfer16.lean ====
section
/-! DEFINITION. 16-bit data transfer: MOVW and XCHW (41_data_transfer_16 R170 to R176). -/

namespace Sys2Proof.Machine

/-- MOVW of a memory word to AX (41 R170, R172 to R174). -/
def movwToAx (m : MemOperand) (len : Addr) (s : State) : Result :=
  outcome (do
    let a ← wordOperand s m
    let (v, s) ← load16 s a
    pure (advance (setPair s (bank s) .ax v) len))

/-- MOVW of a word to memory (41 R170, R172 to R174). -/
def movwStore (m : MemOperand) (v : Word) (len : Addr) (s : State) : Result :=
  outcome (do
    let a ← wordOperand s m
    let t ← store16 s a v
    pure (advance t len))

/-- `MOVW rp,#word` (41 R171). -/
def execMovwRpWord (p : RegPair) (w : Word) (s : State) : Result := .next (advance (setPair s (bank s) p w) 3)

/-- `MOVW saddrp,#word` (41 R172). -/
def execMovwSaddrpWord (o : Byte) (w : Word) (s : State) : Result := movwStore (.saddr o) w 4 s

/-- `MOVW sfrp,#word` (41 R173). -/
def execMovwSfrpWord (o : Byte) (w : Word) (s : State) : Result := movwStore (.sfr o) w 4 s

/-- `MOVW AX,saddrp` (41 R172). -/
def execMovwAxSaddrp (o : Byte) (s : State) : Result := movwToAx (.saddr o) 2 s

/-- `MOVW saddrp,AX` (41 R172). -/
def execMovwSaddrpAx (o : Byte) (s : State) : Result := movwStore (.saddr o) (pair s (bank s) .ax) 2 s

/-- `MOVW AX,sfrp` (41 R173). -/
def execMovwAxSfrp (o : Byte) (s : State) : Result := movwToAx (.sfr o) 2 s

/-- `MOVW sfrp,AX` (41 R173). -/
def execMovwSfrpAx (o : Byte) (s : State) : Result := movwStore (.sfr o) (pair s (bank s) .ax) 2 s

/-- `MOVW AX,rp` (41 R171). -/
def execMovwAxRp (p : RegPair) (s : State) : Result := .next (advance (setPair s (bank s) .ax (pair s (bank s) p)) 1)

/-- `MOVW rp,AX` (41 R171). -/
def execMovwRpAx (p : RegPair) (s : State) : Result := .next (advance (setPair s (bank s) p (pair s (bank s) .ax)) 1)

/-- `MOVW AX,!addr16` (41 R174). -/
def execMovwAxAbs (a : Addr) (s : State) : Result := movwToAx (.abs a) 3 s

/-- `MOVW !addr16,AX` (41 R174). -/
def execMovwAbsAx (a : Addr) (s : State) : Result := movwStore (.abs a) (pair s (bank s) .ax) 3 s

/-- `XCHW AX,rp` (41 R176). -/
def execXchwAxRp (p : RegPair) (s : State) : Result :=
  .next (advance (setPair (setPair s (bank s) .ax (pair s (bank s) p)) (bank s) p (pair s (bank s) .ax)) 1)

end Sys2Proof.Machine
end

