-- ==== Sys2Proof/Machine/Transfer8.lean ====
section
/-! DEFINITION. 8-bit data transfer: MOV and XCH (40_data_transfer_8 R140 to R150). -/

namespace Sys2Proof.Machine

/-- MOV of a memory operand to A (40 R142 to R148). -/
def movToA (m : MemOperand) (len : Addr) (s : State) : Result :=
  outcome (do
    let (v, s) ← loadOperand s .byte m
    pure (advance (setReg s (bank s) .a v) len))

/-- MOV of immediate data to a memory operand (40 R142, R143); `hold` where the bytes are those of MOV PSW,#byte. -/
def movImm (m : MemOperand) (v : Byte) (len : Addr) (hold : Bool) (s : State) : Result :=
  outcome (do
    let a ← byteOperand s m
    let t ← store8 s .byte a v
    pure (advance t len hold))

/-- MOV of A to a memory operand (40 R142 to R148); `hold` where the bytes are those of MOV PSW,A. -/
def movFromA (m : MemOperand) (len : Addr) (hold : Bool) (s : State) : Result :=
  outcome (do
    let a ← byteOperand s m
    let t ← store8 s .byte a (reg s (bank s) .a)
    pure (advance t len hold))

/-- XCH of A and a memory operand: read memory, write memory, then write A of the bank selected at the start (40 R150;
92 D15). -/
def xchMem (m : MemOperand) (len : Addr) (s : State) : Result :=
  outcome (do
    let a ← byteOperand s m
    let (v, s) ← load8 s .byte a
    let t ← store8 s .byte a (reg s (bank s) .a)
    pure (advance (setReg t (bank s) .a v) len))

/-- `MOV r,#byte` (40 R141). -/
def execMovRImm (r : Reg8) (d : Byte) (s : State) : Result := .next (advance (setReg s (bank s) r d) 2)

/-- `MOV saddr,#byte` (40 R142). -/
def execMovSaddrImm (o : Byte) (d : Byte) (s : State) : Result := movImm (.saddr o) d 3 (o == pswOffset) s

/-- `MOV sfr,#byte` (40 R143). -/
def execMovSfrImm (o : Byte) (d : Byte) (s : State) : Result := movImm (.sfr o) d 3 false s

/-- `MOV A,r` (40 R141). -/
def execMovAR (r : Reg8) (s : State) : Result := .next (advance (setReg s (bank s) .a (reg s (bank s) r)) 1)

/-- `MOV r,A` (40 R141). -/
def execMovRA (r : Reg8) (s : State) : Result := .next (advance (setReg s (bank s) r (reg s (bank s) .a)) 1)

/-- `MOV A,saddr` (40 R142). -/
def execMovASaddr (o : Byte) (s : State) : Result := movToA (.saddr o) 2 s

/-- `MOV saddr,A` (40 R142). -/
def execMovSaddrA (o : Byte) (s : State) : Result := movFromA (.saddr o) 2 (o == pswOffset) s

/-- `MOV A,sfr` (40 R143). -/
def execMovASfr (o : Byte) (s : State) : Result := movToA (.sfr o) 2 s

/-- `MOV sfr,A` (40 R143). -/
def execMovSfrA (o : Byte) (s : State) : Result := movFromA (.sfr o) 2 false s

/-- `MOV A,!addr16` (40 R144). -/
def execMovAAbs (a : Addr) (s : State) : Result := movToA (.abs a) 3 s

/-- `MOV !addr16,A` (40 R144). -/
def execMovAbsA (a : Addr) (s : State) : Result := movFromA (.abs a) 3 false s

/-- `MOV PSW,#byte` (40 R145). -/
def execMovPswImm (d : Byte) (s : State) : Result := .next (advance (setPsw s d) 3 true)

/-- `MOV A,PSW` (40 R145). -/
def execMovAPsw (s : State) : Result := .next (advance (setReg s (bank s) .a s.psw) 2)

/-- `MOV PSW,A` (40 R145). -/
def execMovPswA (s : State) : Result := .next (advance (setPsw s (reg s (bank s) .a)) 2 true)

/-- `MOV A,[DE]` (40 R146). -/
def execMovADe (s : State) : Result := movToA .de 1 s

/-- `MOV [DE],A` (40 R146). -/
def execMovDeA (s : State) : Result := movFromA .de 1 false s

/-- `MOV A,[HL]` (40 R146). -/
def execMovAHl (s : State) : Result := movToA .hl 1 s

/-- `MOV [HL],A` (40 R146). -/
def execMovHlA (s : State) : Result := movFromA .hl 1 false s

/-- `MOV A,[HL+byte]` (40 R147). -/
def execMovAHlByte (d : Byte) (s : State) : Result := movToA (.hlByte d) 2 s

/-- `MOV [HL+byte],A` (40 R147). -/
def execMovHlByteA (d : Byte) (s : State) : Result := movFromA (.hlByte d) 2 false s

/-- `MOV A,[HL+B]` (40 R148). -/
def execMovAHlB (s : State) : Result := movToA .hlB 1 s

/-- `MOV [HL+B],A` (40 R148). -/
def execMovHlBA (s : State) : Result := movFromA .hlB 1 false s

/-- `MOV A,[HL+C]` (40 R148). -/
def execMovAHlC (s : State) : Result := movToA .hlC 1 s

/-- `MOV [HL+C],A` (40 R148). -/
def execMovHlCA (s : State) : Result := movFromA .hlC 1 false s

/-- `XCH A,r` (40 R150). -/
def execXchAR (r : Reg8) (s : State) : Result :=
  .next (advance (setReg (setReg s (bank s) .a (reg s (bank s) r)) (bank s) r (reg s (bank s) .a)) 1)

/-- `XCH A,saddr` (40 R150). -/
def execXchASaddr (o : Byte) (s : State) : Result := xchMem (.saddr o) 2 s

/-- `XCH A,sfr` (40 R150). -/
def execXchASfr (o : Byte) (s : State) : Result := xchMem (.sfr o) 2 s

/-- `XCH A,!addr16` (40 R150). -/
def execXchAAbs (a : Addr) (s : State) : Result := xchMem (.abs a) 3 s

/-- `XCH A,[DE]` (40 R150). -/
def execXchADe (s : State) : Result := xchMem .de 1 s

/-- `XCH A,[HL]` (40 R150). -/
def execXchAHl (s : State) : Result := xchMem .hl 1 s

/-- `XCH A,[HL+byte]` (40 R150). -/
def execXchAHlByte (d : Byte) (s : State) : Result := xchMem (.hlByte d) 2 s

/-- `XCH A,[HL+B]` (40 R150). -/
def execXchAHlB (s : State) : Result := xchMem .hlB 2 s

/-- `XCH A,[HL+C]` (40 R150). -/
def execXchAHlC (s : State) : Result := xchMem .hlC 2 s

end Sys2Proof.Machine
end

