-- ==== Sys2Proof/Machine/Dispatch.lean ====
section
/-! DEFINITION. The meaning of every instruction: one arm per constructor of `Instr`. -/

namespace Sys2Proof.Machine

/-- What an instruction does, from a state whose `pc` is the address of its first byte. -/
def exec (i : Instr) (s : State) : Host.Outcome State Fault Refusal :=
  match i with
  | .movRImm r d => Sys2Proof.Machine.execMovRImm r d s
  | .movSaddrImm o d => Sys2Proof.Machine.execMovSaddrImm o d s
  | .movSfrImm o d => Sys2Proof.Machine.execMovSfrImm o d s
  | .movAR r => Sys2Proof.Machine.execMovAR r s
  | .movRA r => Sys2Proof.Machine.execMovRA r s
  | .movASaddr o => Sys2Proof.Machine.execMovASaddr o s
  | .movSaddrA o => Sys2Proof.Machine.execMovSaddrA o s
  | .movASfr o => Sys2Proof.Machine.execMovASfr o s
  | .movSfrA o => Sys2Proof.Machine.execMovSfrA o s
  | .movAAbs a => Sys2Proof.Machine.execMovAAbs a s
  | .movAbsA a => Sys2Proof.Machine.execMovAbsA a s
  | .movPswImm d => Sys2Proof.Machine.execMovPswImm d s
  | .movAPsw => Sys2Proof.Machine.execMovAPsw s
  | .movPswA => Sys2Proof.Machine.execMovPswA s
  | .movADe => Sys2Proof.Machine.execMovADe s
  | .movDeA => Sys2Proof.Machine.execMovDeA s
  | .movAHl => Sys2Proof.Machine.execMovAHl s
  | .movHlA => Sys2Proof.Machine.execMovHlA s
  | .movAHlByte d => Sys2Proof.Machine.execMovAHlByte d s
  | .movHlByteA d => Sys2Proof.Machine.execMovHlByteA d s
  | .movAHlB => Sys2Proof.Machine.execMovAHlB s
  | .movHlBA => Sys2Proof.Machine.execMovHlBA s
  | .movAHlC => Sys2Proof.Machine.execMovAHlC s
  | .movHlCA => Sys2Proof.Machine.execMovHlCA s
  | .xchAR r => Sys2Proof.Machine.execXchAR r s
  | .xchASaddr o => Sys2Proof.Machine.execXchASaddr o s
  | .xchASfr o => Sys2Proof.Machine.execXchASfr o s
  | .xchAAbs a => Sys2Proof.Machine.execXchAAbs a s
  | .xchADe => Sys2Proof.Machine.execXchADe s
  | .xchAHl => Sys2Proof.Machine.execXchAHl s
  | .xchAHlByte d => Sys2Proof.Machine.execXchAHlByte d s
  | .xchAHlB => Sys2Proof.Machine.execXchAHlB s
  | .xchAHlC => Sys2Proof.Machine.execXchAHlC s
  | .movwRpWord p w => Sys2Proof.Machine.execMovwRpWord p w s
  | .movwSaddrpWord o w => Sys2Proof.Machine.execMovwSaddrpWord o w s
  | .movwSfrpWord o w => Sys2Proof.Machine.execMovwSfrpWord o w s
  | .movwAxSaddrp o => Sys2Proof.Machine.execMovwAxSaddrp o s
  | .movwSaddrpAx o => Sys2Proof.Machine.execMovwSaddrpAx o s
  | .movwAxSfrp o => Sys2Proof.Machine.execMovwAxSfrp o s
  | .movwSfrpAx o => Sys2Proof.Machine.execMovwSfrpAx o s
  | .movwAxRp p => Sys2Proof.Machine.execMovwAxRp p s
  | .movwRpAx p => Sys2Proof.Machine.execMovwRpAx p s
  | .movwAxAbs a => Sys2Proof.Machine.execMovwAxAbs a s
  | .movwAbsAx a => Sys2Proof.Machine.execMovwAbsAx a s
  | .xchwAxRp p => Sys2Proof.Machine.execXchwAxRp p s
  | .addAImm d => Sys2Proof.Machine.execAddAImm d s
  | .addSaddrImm o d => Sys2Proof.Machine.execAddSaddrImm o d s
  | .addAR r => Sys2Proof.Machine.execAddAR r s
  | .addRA r => Sys2Proof.Machine.execAddRA r s
  | .addASaddr o => Sys2Proof.Machine.execAddASaddr o s
  | .addAAbs a => Sys2Proof.Machine.execAddAAbs a s
  | .addAHl => Sys2Proof.Machine.execAddAHl s
  | .addAHlByte d => Sys2Proof.Machine.execAddAHlByte d s
  | .addAHlB => Sys2Proof.Machine.execAddAHlB s
  | .addAHlC => Sys2Proof.Machine.execAddAHlC s
  | .addcAImm d => Sys2Proof.Machine.execAddcAImm d s
  | .addcSaddrImm o d => Sys2Proof.Machine.execAddcSaddrImm o d s
  | .addcAR r => Sys2Proof.Machine.execAddcAR r s
  | .addcRA r => Sys2Proof.Machine.execAddcRA r s
  | .addcASaddr o => Sys2Proof.Machine.execAddcASaddr o s
  | .addcAAbs a => Sys2Proof.Machine.execAddcAAbs a s
  | .addcAHl => Sys2Proof.Machine.execAddcAHl s
  | .addcAHlByte d => Sys2Proof.Machine.execAddcAHlByte d s
  | .addcAHlB => Sys2Proof.Machine.execAddcAHlB s
  | .addcAHlC => Sys2Proof.Machine.execAddcAHlC s
  | .subAImm d => Sys2Proof.Machine.execSubAImm d s
  | .subSaddrImm o d => Sys2Proof.Machine.execSubSaddrImm o d s
  | .subAR r => Sys2Proof.Machine.execSubAR r s
  | .subRA r => Sys2Proof.Machine.execSubRA r s
  | .subASaddr o => Sys2Proof.Machine.execSubASaddr o s
  | .subAAbs a => Sys2Proof.Machine.execSubAAbs a s
  | .subAHl => Sys2Proof.Machine.execSubAHl s
  | .subAHlByte d => Sys2Proof.Machine.execSubAHlByte d s
  | .subAHlB => Sys2Proof.Machine.execSubAHlB s
  | .subAHlC => Sys2Proof.Machine.execSubAHlC s
  | .subcAImm d => Sys2Proof.Machine.execSubcAImm d s
  | .subcSaddrImm o d => Sys2Proof.Machine.execSubcSaddrImm o d s
  | .subcAR r => Sys2Proof.Machine.execSubcAR r s
  | .subcRA r => Sys2Proof.Machine.execSubcRA r s
  | .subcASaddr o => Sys2Proof.Machine.execSubcASaddr o s
  | .subcAAbs a => Sys2Proof.Machine.execSubcAAbs a s
  | .subcAHl => Sys2Proof.Machine.execSubcAHl s
  | .subcAHlByte d => Sys2Proof.Machine.execSubcAHlByte d s
  | .subcAHlB => Sys2Proof.Machine.execSubcAHlB s
  | .subcAHlC => Sys2Proof.Machine.execSubcAHlC s
  | .andAImm d => Sys2Proof.Machine.execAndAImm d s
  | .andSaddrImm o d => Sys2Proof.Machine.execAndSaddrImm o d s
  | .andAR r => Sys2Proof.Machine.execAndAR r s
  | .andRA r => Sys2Proof.Machine.execAndRA r s
  | .andASaddr o => Sys2Proof.Machine.execAndASaddr o s
  | .andAAbs a => Sys2Proof.Machine.execAndAAbs a s
  | .andAHl => Sys2Proof.Machine.execAndAHl s
  | .andAHlByte d => Sys2Proof.Machine.execAndAHlByte d s
  | .andAHlB => Sys2Proof.Machine.execAndAHlB s
  | .andAHlC => Sys2Proof.Machine.execAndAHlC s
  | .orAImm d => Sys2Proof.Machine.execOrAImm d s
  | .orSaddrImm o d => Sys2Proof.Machine.execOrSaddrImm o d s
  | .orAR r => Sys2Proof.Machine.execOrAR r s
  | .orRA r => Sys2Proof.Machine.execOrRA r s
  | .orASaddr o => Sys2Proof.Machine.execOrASaddr o s
  | .orAAbs a => Sys2Proof.Machine.execOrAAbs a s
  | .orAHl => Sys2Proof.Machine.execOrAHl s
  | .orAHlByte d => Sys2Proof.Machine.execOrAHlByte d s
  | .orAHlB => Sys2Proof.Machine.execOrAHlB s
  | .orAHlC => Sys2Proof.Machine.execOrAHlC s
  | .xorAImm d => Sys2Proof.Machine.execXorAImm d s
  | .xorSaddrImm o d => Sys2Proof.Machine.execXorSaddrImm o d s
  | .xorAR r => Sys2Proof.Machine.execXorAR r s
  | .xorRA r => Sys2Proof.Machine.execXorRA r s
  | .xorASaddr o => Sys2Proof.Machine.execXorASaddr o s
  | .xorAAbs a => Sys2Proof.Machine.execXorAAbs a s
  | .xorAHl => Sys2Proof.Machine.execXorAHl s
  | .xorAHlByte d => Sys2Proof.Machine.execXorAHlByte d s
  | .xorAHlB => Sys2Proof.Machine.execXorAHlB s
  | .xorAHlC => Sys2Proof.Machine.execXorAHlC s
  | .cmpAImm d => Sys2Proof.Machine.execCmpAImm d s
  | .cmpSaddrImm o d => Sys2Proof.Machine.execCmpSaddrImm o d s
  | .cmpAR r => Sys2Proof.Machine.execCmpAR r s
  | .cmpRA r => Sys2Proof.Machine.execCmpRA r s
  | .cmpASaddr o => Sys2Proof.Machine.execCmpASaddr o s
  | .cmpAAbs a => Sys2Proof.Machine.execCmpAAbs a s
  | .cmpAHl => Sys2Proof.Machine.execCmpAHl s
  | .cmpAHlByte d => Sys2Proof.Machine.execCmpAHlByte d s
  | .cmpAHlB => Sys2Proof.Machine.execCmpAHlB s
  | .cmpAHlC => Sys2Proof.Machine.execCmpAHlC s
  | .addwAxWord w => Sys2Proof.Machine.execAddwAxWord w s
  | .subwAxWord w => Sys2Proof.Machine.execSubwAxWord w s
  | .cmpwAxWord w => Sys2Proof.Machine.execCmpwAxWord w s
  | .mulu => Sys2Proof.Machine.execMulu s
  | .divuw => Sys2Proof.Machine.execDivuw s
  | .incR r => Sys2Proof.Machine.execIncR r s
  | .incSaddr o => Sys2Proof.Machine.execIncSaddr o s
  | .decR r => Sys2Proof.Machine.execDecR r s
  | .decSaddr o => Sys2Proof.Machine.execDecSaddr o s
  | .incwRp p => Sys2Proof.Machine.execIncwRp p s
  | .decwRp p => Sys2Proof.Machine.execDecwRp p s
  | .ror => Sys2Proof.Machine.execRor s
  | .rol => Sys2Proof.Machine.execRol s
  | .rorc => Sys2Proof.Machine.execRorc s
  | .rolc => Sys2Proof.Machine.execRolc s
  | .ror4 => Sys2Proof.Machine.execRor4 s
  | .rol4 => Sys2Proof.Machine.execRol4 s
  | .adjba => Sys2Proof.Machine.execAdjba s
  | .adjbs => Sys2Proof.Machine.execAdjbs s
  | .mov1CySaddrBit o n => Sys2Proof.Machine.execMov1CySaddrBit o n s
  | .mov1CySfrBit o n => Sys2Proof.Machine.execMov1CySfrBit o n s
  | .mov1CyABit n => Sys2Proof.Machine.execMov1CyABit n s
  | .mov1CyPswBit n => Sys2Proof.Machine.execMov1CyPswBit n s
  | .mov1CyHlBit n => Sys2Proof.Machine.execMov1CyHlBit n s
  | .mov1SaddrBitCy o n => Sys2Proof.Machine.execMov1SaddrBitCy o n s
  | .mov1SfrBitCy o n => Sys2Proof.Machine.execMov1SfrBitCy o n s
  | .mov1ABitCy n => Sys2Proof.Machine.execMov1ABitCy n s
  | .mov1PswBitCy n => Sys2Proof.Machine.execMov1PswBitCy n s
  | .mov1HlBitCy n => Sys2Proof.Machine.execMov1HlBitCy n s
  | .and1CySaddrBit o n => Sys2Proof.Machine.execAnd1CySaddrBit o n s
  | .and1CySfrBit o n => Sys2Proof.Machine.execAnd1CySfrBit o n s
  | .and1CyABit n => Sys2Proof.Machine.execAnd1CyABit n s
  | .and1CyPswBit n => Sys2Proof.Machine.execAnd1CyPswBit n s
  | .and1CyHlBit n => Sys2Proof.Machine.execAnd1CyHlBit n s
  | .or1CySaddrBit o n => Sys2Proof.Machine.execOr1CySaddrBit o n s
  | .or1CySfrBit o n => Sys2Proof.Machine.execOr1CySfrBit o n s
  | .or1CyABit n => Sys2Proof.Machine.execOr1CyABit n s
  | .or1CyPswBit n => Sys2Proof.Machine.execOr1CyPswBit n s
  | .or1CyHlBit n => Sys2Proof.Machine.execOr1CyHlBit n s
  | .xor1CySaddrBit o n => Sys2Proof.Machine.execXor1CySaddrBit o n s
  | .xor1CySfrBit o n => Sys2Proof.Machine.execXor1CySfrBit o n s
  | .xor1CyABit n => Sys2Proof.Machine.execXor1CyABit n s
  | .xor1CyPswBit n => Sys2Proof.Machine.execXor1CyPswBit n s
  | .xor1CyHlBit n => Sys2Proof.Machine.execXor1CyHlBit n s
  | .set1SaddrBit o n => Sys2Proof.Machine.execSet1SaddrBit o n s
  | .set1SfrBit o n => Sys2Proof.Machine.execSet1SfrBit o n s
  | .set1ABit n => Sys2Proof.Machine.execSet1ABit n s
  | .set1PswBit n => Sys2Proof.Machine.execSet1PswBit n s
  | .set1HlBit n => Sys2Proof.Machine.execSet1HlBit n s
  | .clr1SaddrBit o n => Sys2Proof.Machine.execClr1SaddrBit o n s
  | .clr1SfrBit o n => Sys2Proof.Machine.execClr1SfrBit o n s
  | .clr1ABit n => Sys2Proof.Machine.execClr1ABit n s
  | .clr1PswBit n => Sys2Proof.Machine.execClr1PswBit n s
  | .clr1HlBit n => Sys2Proof.Machine.execClr1HlBit n s
  | .set1Cy => Sys2Proof.Machine.execSet1Cy s
  | .clr1Cy => Sys2Proof.Machine.execClr1Cy s
  | .not1Cy => Sys2Proof.Machine.execNot1Cy s
  | .call a => Sys2Proof.Machine.execCall a s
  | .callf f => Sys2Proof.Machine.execCallf f s
  | .callt t => Sys2Proof.Machine.execCallt t s
  | .brk => Sys2Proof.Machine.execBrk s
  | .ret => Sys2Proof.Machine.execRet s
  | .retb => Sys2Proof.Machine.execRetb s
  | .reti => Sys2Proof.Machine.execReti s
  | .pushPsw => Sys2Proof.Machine.execPushPsw s
  | .pushRp p => Sys2Proof.Machine.execPushRp p s
  | .popPsw => Sys2Proof.Machine.execPopPsw s
  | .popRp p => Sys2Proof.Machine.execPopRp p s
  | .movwSpWord w => Sys2Proof.Machine.execMovwSpWord w s
  | .movwSpAx => Sys2Proof.Machine.execMovwSpAx s
  | .movwAxSp => Sys2Proof.Machine.execMovwAxSp s
  | .brAbs a => Sys2Proof.Machine.execBrAbs a s
  | .brRel j => Sys2Proof.Machine.execBrRel j s
  | .brAx => Sys2Proof.Machine.execBrAx s
  | .bc j => Sys2Proof.Machine.execBc j s
  | .bnc j => Sys2Proof.Machine.execBnc j s
  | .bz j => Sys2Proof.Machine.execBz j s
  | .bnz j => Sys2Proof.Machine.execBnz j s
  | .btSaddrBit o n j => Sys2Proof.Machine.execBtSaddrBit o n j s
  | .btSfrBit o n j => Sys2Proof.Machine.execBtSfrBit o n j s
  | .btABit n j => Sys2Proof.Machine.execBtABit n j s
  | .btPswBit n j => Sys2Proof.Machine.execBtPswBit n j s
  | .btHlBit n j => Sys2Proof.Machine.execBtHlBit n j s
  | .bfSaddrBit o n j => Sys2Proof.Machine.execBfSaddrBit o n j s
  | .bfSfrBit o n j => Sys2Proof.Machine.execBfSfrBit o n j s
  | .bfABit n j => Sys2Proof.Machine.execBfABit n j s
  | .bfPswBit n j => Sys2Proof.Machine.execBfPswBit n j s
  | .bfHlBit n j => Sys2Proof.Machine.execBfHlBit n j s
  | .btclrSaddrBit o n j => Sys2Proof.Machine.execBtclrSaddrBit o n j s
  | .btclrSfrBit o n j => Sys2Proof.Machine.execBtclrSfrBit o n j s
  | .btclrABit n j => Sys2Proof.Machine.execBtclrABit n j s
  | .btclrPswBit n j => Sys2Proof.Machine.execBtclrPswBit n j s
  | .btclrHlBit n j => Sys2Proof.Machine.execBtclrHlBit n j s
  | .dbnzB j => Sys2Proof.Machine.execDbnzB j s
  | .dbnzC j => Sys2Proof.Machine.execDbnzC j s
  | .dbnzSaddr o j => Sys2Proof.Machine.execDbnzSaddr o j s
  | .sel b => Sys2Proof.Machine.execSel b s
  | .nop => Sys2Proof.Machine.execNop s
  | .ei => Sys2Proof.Machine.execEi s
  | .di => Sys2Proof.Machine.execDi s
  | .halt => Sys2Proof.Machine.execHalt s
  | .stop => Sys2Proof.Machine.execStop s

end Sys2Proof.Machine
end

