-- ==== Sys2Proof/Decode.lean ====
section
/-! DEFINITION. The decoder, total on any bytes, and the encoder (30_encoding R101 to R111, R125; 31_prefix_maps R116
to R118). The decoder reads the opcode byte in a table with one row per general row of the instruction code list; the
operand bytes follow in the order of 30_encoding R102. An offset 1EH or 1CH that has a row of its own is read as that
row (30_encoding R106, R108). The encoder is written separately, from the same code list. -/

namespace Sys2Proof

open Sys2Proof.Machine

/-- Why bytes are no instruction. -/
inductive DecodeError where
  /-- The bytes end before the instruction does. -/
  | truncated
  /-- The code list assigns these bytes to no instruction (30_encoding R125). -/
  | undefined (bytes : List Byte)
  deriving DecidableEq, Repr

/-- The operand bytes an opcode takes, and the instruction they complete (30_encoding R102). -/
inductive Form where
  | none (i : Instr)
  | one (f : Byte → Instr)
  | two (f : Byte → Byte → Instr)
  | three (f : Byte → Byte → Byte → Instr)

/-- A row of the code list: the opcode bytes it matches, those its note excludes (30_encoding R107), and what follows
the opcode byte. -/
structure Row where
  mask : Byte
  pat : Byte
  skip : Byte → Bool := fun _ => false
  form : Byte → Form

/-- The opcode byte `b` selects this row (opcode_table.json: bytes and mask give match). -/
def Row.selects (row : Row) (b : Byte) : Bool := b &&& row.mask == row.pat && !row.skip b

/-- First bytes: 8-bit data transfer (40). -/
def rowsTransfer8 : List Row := [
  { mask := 0xF8, pat := 0xA0, form := fun b => .one (fun d => .movRImm (.ofCode (fieldOf 3 0 b)) d) },
  { mask := 0xFF, pat := 0x11, form := fun _ => .two (fun o d => if o = pswOffset then .movPswImm d else .movSaddrImm o d) },
  { mask := 0xFF, pat := 0x13, form := fun _ => .two (fun o d => .movSfrImm o d) },
  { mask := 0xF8, pat := 0x60, skip := fun b => fieldOf 3 0 b = 1, form := fun b => .none (.movAR (.ofCode (fieldOf 3 0 b))) },
  { mask := 0xF8, pat := 0x70, skip := fun b => fieldOf 3 0 b = 1, form := fun b => .none (.movRA (.ofCode (fieldOf 3 0 b))) },
  { mask := 0xFF, pat := 0xF0, form := fun _ => .one (fun o => if o = pswOffset then .movAPsw else .movASaddr o) },
  { mask := 0xFF, pat := 0xF2, form := fun _ => .one (fun o => if o = pswOffset then .movPswA else .movSaddrA o) },
  { mask := 0xFF, pat := 0xF4, form := fun _ => .one (fun o => .movASfr o) },
  { mask := 0xFF, pat := 0xF6, form := fun _ => .one (fun o => .movSfrA o) },
  { mask := 0xFF, pat := 0x8E, form := fun _ => .two (fun l h => .movAAbs (mkWord h l)) },
  { mask := 0xFF, pat := 0x9E, form := fun _ => .two (fun l h => .movAbsA (mkWord h l)) },
  { mask := 0xFF, pat := 0x85, form := fun _ => .none .movADe },
  { mask := 0xFF, pat := 0x95, form := fun _ => .none .movDeA },
  { mask := 0xFF, pat := 0x87, form := fun _ => .none .movAHl },
  { mask := 0xFF, pat := 0x97, form := fun _ => .none .movHlA },
  { mask := 0xFF, pat := 0xAE, form := fun _ => .one (fun d => .movAHlByte d) },
  { mask := 0xFF, pat := 0xBE, form := fun _ => .one (fun d => .movHlByteA d) },
  { mask := 0xFF, pat := 0xAB, form := fun _ => .none .movAHlB },
  { mask := 0xFF, pat := 0xBB, form := fun _ => .none .movHlBA },
  { mask := 0xFF, pat := 0xAA, form := fun _ => .none .movAHlC },
  { mask := 0xFF, pat := 0xBA, form := fun _ => .none .movHlCA },
  { mask := 0xF8, pat := 0x30, skip := fun b => fieldOf 3 0 b = 1, form := fun b => .none (.xchAR (.ofCode (fieldOf 3 0 b))) },
  { mask := 0xFF, pat := 0x83, form := fun _ => .one (fun o => .xchASaddr o) },
  { mask := 0xFF, pat := 0x93, form := fun _ => .one (fun o => .xchASfr o) },
  { mask := 0xFF, pat := 0xCE, form := fun _ => .two (fun l h => .xchAAbs (mkWord h l)) },
  { mask := 0xFF, pat := 0x05, form := fun _ => .none .xchADe },
  { mask := 0xFF, pat := 0x07, form := fun _ => .none .xchAHl },
  { mask := 0xFF, pat := 0xDE, form := fun _ => .one (fun d => .xchAHlByte d) }]

/-- First bytes: 16-bit data transfer (41). -/
def rowsTransfer16 : List Row := [
  { mask := 0xF9, pat := 0x10, form := fun b => .two (fun l h => .movwRpWord (.ofCode (fieldOf 2 1 b)) (mkWord h l)) },
  { mask := 0xFF, pat := 0xEE, form := fun _ => .three (fun o l h => if o = spOffset then .movwSpWord (mkWord h l) else .movwSaddrpWord o (mkWord h l)) },
  { mask := 0xFF, pat := 0xFE, form := fun _ => .three (fun o l h => .movwSfrpWord o (mkWord h l)) },
  { mask := 0xFF, pat := 0x89, form := fun _ => .one (fun o => if o = spOffset then .movwAxSp else .movwAxSaddrp o) },
  { mask := 0xFF, pat := 0x99, form := fun _ => .one (fun o => if o = spOffset then .movwSpAx else .movwSaddrpAx o) },
  { mask := 0xFF, pat := 0xA9, form := fun _ => .one (fun o => .movwAxSfrp o) },
  { mask := 0xFF, pat := 0xB9, form := fun _ => .one (fun o => .movwSfrpAx o) },
  { mask := 0xF9, pat := 0xC0, skip := fun b => fieldOf 2 1 b = 0, form := fun b => .none (.movwAxRp (.ofCode (fieldOf 2 1 b))) },
  { mask := 0xF9, pat := 0xD0, skip := fun b => fieldOf 2 1 b = 0, form := fun b => .none (.movwRpAx (.ofCode (fieldOf 2 1 b))) },
  { mask := 0xFF, pat := 0x02, form := fun _ => .two (fun l h => .movwAxAbs (mkWord h l)) },
  { mask := 0xFF, pat := 0x03, form := fun _ => .two (fun l h => .movwAbsAx (mkWord h l)) },
  { mask := 0xF9, pat := 0xE0, skip := fun b => fieldOf 2 1 b = 0, form := fun b => .none (.xchwAxRp (.ofCode (fieldOf 2 1 b))) }]

/-- First bytes: 8-bit operations (42). -/
def rowsAlu8 : List Row := [
  { mask := 0xFF, pat := 0x0D, form := fun _ => .one (fun d => .addAImm d) },
  { mask := 0xFF, pat := 0x88, form := fun _ => .two (fun o d => .addSaddrImm o d) },
  { mask := 0xFF, pat := 0x0E, form := fun _ => .one (fun o => .addASaddr o) },
  { mask := 0xFF, pat := 0x08, form := fun _ => .two (fun l h => .addAAbs (mkWord h l)) },
  { mask := 0xFF, pat := 0x0F, form := fun _ => .none .addAHl },
  { mask := 0xFF, pat := 0x09, form := fun _ => .one (fun d => .addAHlByte d) },
  { mask := 0xFF, pat := 0x2D, form := fun _ => .one (fun d => .addcAImm d) },
  { mask := 0xFF, pat := 0xA8, form := fun _ => .two (fun o d => .addcSaddrImm o d) },
  { mask := 0xFF, pat := 0x2E, form := fun _ => .one (fun o => .addcASaddr o) },
  { mask := 0xFF, pat := 0x28, form := fun _ => .two (fun l h => .addcAAbs (mkWord h l)) },
  { mask := 0xFF, pat := 0x2F, form := fun _ => .none .addcAHl },
  { mask := 0xFF, pat := 0x29, form := fun _ => .one (fun d => .addcAHlByte d) },
  { mask := 0xFF, pat := 0x1D, form := fun _ => .one (fun d => .subAImm d) },
  { mask := 0xFF, pat := 0x98, form := fun _ => .two (fun o d => .subSaddrImm o d) },
  { mask := 0xFF, pat := 0x1E, form := fun _ => .one (fun o => .subASaddr o) },
  { mask := 0xFF, pat := 0x18, form := fun _ => .two (fun l h => .subAAbs (mkWord h l)) },
  { mask := 0xFF, pat := 0x1F, form := fun _ => .none .subAHl },
  { mask := 0xFF, pat := 0x19, form := fun _ => .one (fun d => .subAHlByte d) },
  { mask := 0xFF, pat := 0x3D, form := fun _ => .one (fun d => .subcAImm d) },
  { mask := 0xFF, pat := 0xB8, form := fun _ => .two (fun o d => .subcSaddrImm o d) },
  { mask := 0xFF, pat := 0x3E, form := fun _ => .one (fun o => .subcASaddr o) },
  { mask := 0xFF, pat := 0x38, form := fun _ => .two (fun l h => .subcAAbs (mkWord h l)) },
  { mask := 0xFF, pat := 0x3F, form := fun _ => .none .subcAHl },
  { mask := 0xFF, pat := 0x39, form := fun _ => .one (fun d => .subcAHlByte d) },
  { mask := 0xFF, pat := 0x5D, form := fun _ => .one (fun d => .andAImm d) },
  { mask := 0xFF, pat := 0xD8, form := fun _ => .two (fun o d => .andSaddrImm o d) },
  { mask := 0xFF, pat := 0x5E, form := fun _ => .one (fun o => .andASaddr o) },
  { mask := 0xFF, pat := 0x58, form := fun _ => .two (fun l h => .andAAbs (mkWord h l)) },
  { mask := 0xFF, pat := 0x5F, form := fun _ => .none .andAHl },
  { mask := 0xFF, pat := 0x59, form := fun _ => .one (fun d => .andAHlByte d) },
  { mask := 0xFF, pat := 0x6D, form := fun _ => .one (fun d => .orAImm d) },
  { mask := 0xFF, pat := 0xE8, form := fun _ => .two (fun o d => .orSaddrImm o d) },
  { mask := 0xFF, pat := 0x6E, form := fun _ => .one (fun o => .orASaddr o) },
  { mask := 0xFF, pat := 0x68, form := fun _ => .two (fun l h => .orAAbs (mkWord h l)) },
  { mask := 0xFF, pat := 0x6F, form := fun _ => .none .orAHl },
  { mask := 0xFF, pat := 0x69, form := fun _ => .one (fun d => .orAHlByte d) },
  { mask := 0xFF, pat := 0x7D, form := fun _ => .one (fun d => .xorAImm d) },
  { mask := 0xFF, pat := 0xF8, form := fun _ => .two (fun o d => .xorSaddrImm o d) },
  { mask := 0xFF, pat := 0x7E, form := fun _ => .one (fun o => .xorASaddr o) },
  { mask := 0xFF, pat := 0x78, form := fun _ => .two (fun l h => .xorAAbs (mkWord h l)) },
  { mask := 0xFF, pat := 0x7F, form := fun _ => .none .xorAHl },
  { mask := 0xFF, pat := 0x79, form := fun _ => .one (fun d => .xorAHlByte d) },
  { mask := 0xFF, pat := 0x4D, form := fun _ => .one (fun d => .cmpAImm d) },
  { mask := 0xFF, pat := 0xC8, form := fun _ => .two (fun o d => .cmpSaddrImm o d) },
  { mask := 0xFF, pat := 0x4E, form := fun _ => .one (fun o => .cmpASaddr o) },
  { mask := 0xFF, pat := 0x48, form := fun _ => .two (fun l h => .cmpAAbs (mkWord h l)) },
  { mask := 0xFF, pat := 0x4F, form := fun _ => .none .cmpAHl },
  { mask := 0xFF, pat := 0x49, form := fun _ => .one (fun d => .cmpAHlByte d) }]

/-- First bytes: 16-bit operations (43). -/
def rowsAlu16 : List Row := [
  { mask := 0xFF, pat := 0xCA, form := fun _ => .two (fun l h => .addwAxWord (mkWord h l)) },
  { mask := 0xFF, pat := 0xDA, form := fun _ => .two (fun l h => .subwAxWord (mkWord h l)) },
  { mask := 0xFF, pat := 0xEA, form := fun _ => .two (fun l h => .cmpwAxWord (mkWord h l)) }]

/-- First bytes: Multiply, divide, increment, decrement (44). -/
def rowsIncDec : List Row := [
  { mask := 0xF8, pat := 0x40, form := fun b => .none (.incR (.ofCode (fieldOf 3 0 b))) },
  { mask := 0xFF, pat := 0x81, form := fun _ => .one (fun o => .incSaddr o) },
  { mask := 0xF8, pat := 0x50, form := fun b => .none (.decR (.ofCode (fieldOf 3 0 b))) },
  { mask := 0xFF, pat := 0x91, form := fun _ => .one (fun o => .decSaddr o) },
  { mask := 0xF9, pat := 0x80, form := fun b => .none (.incwRp (.ofCode (fieldOf 2 1 b))) },
  { mask := 0xF9, pat := 0x90, form := fun b => .none (.decwRp (.ofCode (fieldOf 2 1 b))) }]

/-- First bytes: Rotate and BCD adjust (45). -/
def rowsRotate : List Row := [
  { mask := 0xFF, pat := 0x24, form := fun _ => .none .ror },
  { mask := 0xFF, pat := 0x26, form := fun _ => .none .rol },
  { mask := 0xFF, pat := 0x25, form := fun _ => .none .rorc },
  { mask := 0xFF, pat := 0x27, form := fun _ => .none .rolc }]

/-- First bytes: Bit manipulation (46). -/
def rowsBit : List Row := [
  { mask := 0x8F, pat := 0x0A, form := fun b => .one (fun o => if o = pswOffset then (if fieldOf 3 4 b = 7 then .ei else .set1PswBit (fieldOf 3 4 b)) else .set1SaddrBit o (fieldOf 3 4 b)) },
  { mask := 0x8F, pat := 0x0B, form := fun b => .one (fun o => if o = pswOffset then (if fieldOf 3 4 b = 7 then .di else .clr1PswBit (fieldOf 3 4 b)) else .clr1SaddrBit o (fieldOf 3 4 b)) },
  { mask := 0xFF, pat := 0x20, form := fun _ => .none .set1Cy },
  { mask := 0xFF, pat := 0x21, form := fun _ => .none .clr1Cy },
  { mask := 0xFF, pat := 0x01, form := fun _ => .none .not1Cy }]

/-- First bytes: Call, return and stack manipulation (47). -/
def rowsCall : List Row := [
  { mask := 0xFF, pat := 0x9A, form := fun _ => .two (fun l h => .call (mkWord h l)) },
  { mask := 0x8F, pat := 0x0C, form := fun b => .one (fun g => .callf (fieldOf 3 4 b ++ g)) },
  { mask := 0xC1, pat := 0xC1, form := fun b => .none (.callt (fieldOf 5 1 b)) },
  { mask := 0xFF, pat := 0xBF, form := fun _ => .none .brk },
  { mask := 0xFF, pat := 0xAF, form := fun _ => .none .ret },
  { mask := 0xFF, pat := 0x9F, form := fun _ => .none .retb },
  { mask := 0xFF, pat := 0x8F, form := fun _ => .none .reti },
  { mask := 0xFF, pat := 0x22, form := fun _ => .none .pushPsw },
  { mask := 0xF9, pat := 0xB1, form := fun b => .none (.pushRp (.ofCode (fieldOf 2 1 b))) },
  { mask := 0xFF, pat := 0x23, form := fun _ => .none .popPsw },
  { mask := 0xF9, pat := 0xB0, form := fun b => .none (.popRp (.ofCode (fieldOf 2 1 b))) }]

/-- First bytes: Branches (48). -/
def rowsBranch : List Row := [
  { mask := 0xFF, pat := 0x9B, form := fun _ => .two (fun l h => .brAbs (mkWord h l)) },
  { mask := 0xFF, pat := 0xFA, form := fun _ => .one (fun j => .brRel j) },
  { mask := 0xFF, pat := 0x8D, form := fun _ => .one (fun j => .bc j) },
  { mask := 0xFF, pat := 0x9D, form := fun _ => .one (fun j => .bnc j) },
  { mask := 0xFF, pat := 0xAD, form := fun _ => .one (fun j => .bz j) },
  { mask := 0xFF, pat := 0xBD, form := fun _ => .one (fun j => .bnz j) },
  { mask := 0x8F, pat := 0x8C, form := fun b => .two (fun o j => if o = pswOffset then .btPswBit (fieldOf 3 4 b) j else .btSaddrBit o (fieldOf 3 4 b) j) },
  { mask := 0xFF, pat := 0x8B, form := fun _ => .one (fun j => .dbnzB j) },
  { mask := 0xFF, pat := 0x8A, form := fun _ => .one (fun j => .dbnzC j) },
  { mask := 0xFF, pat := 0x04, form := fun _ => .two (fun o j => .dbnzSaddr o j) }]

/-- First bytes: CPU control (49). -/
def rowsControl : List Row := [
  { mask := 0xFF, pat := 0x00, form := fun _ => .none .nop }]

/-- The first bytes that are no prefix (30_encoding R111). -/
def rowsFirst : List Row :=
  rowsTransfer8 ++ rowsTransfer16 ++ rowsAlu8 ++ rowsAlu16 ++ rowsIncDec ++ rowsRotate ++ rowsBit ++ rowsCall ++ rowsBranch ++ rowsControl

/-- Second bytes after 31H (31_prefix_maps R116). -/
def rowsAfter31 : List Row := [
  { mask := 0xFF, pat := 0x8B, form := fun _ => .none .xchAHlB },
  { mask := 0xFF, pat := 0x8A, form := fun _ => .none .xchAHlC },
  { mask := 0xFF, pat := 0x0B, form := fun _ => .none .addAHlB },
  { mask := 0xFF, pat := 0x0A, form := fun _ => .none .addAHlC },
  { mask := 0xFF, pat := 0x2B, form := fun _ => .none .addcAHlB },
  { mask := 0xFF, pat := 0x2A, form := fun _ => .none .addcAHlC },
  { mask := 0xFF, pat := 0x1B, form := fun _ => .none .subAHlB },
  { mask := 0xFF, pat := 0x1A, form := fun _ => .none .subAHlC },
  { mask := 0xFF, pat := 0x3B, form := fun _ => .none .subcAHlB },
  { mask := 0xFF, pat := 0x3A, form := fun _ => .none .subcAHlC },
  { mask := 0xFF, pat := 0x5B, form := fun _ => .none .andAHlB },
  { mask := 0xFF, pat := 0x5A, form := fun _ => .none .andAHlC },
  { mask := 0xFF, pat := 0x6B, form := fun _ => .none .orAHlB },
  { mask := 0xFF, pat := 0x6A, form := fun _ => .none .orAHlC },
  { mask := 0xFF, pat := 0x7B, form := fun _ => .none .xorAHlB },
  { mask := 0xFF, pat := 0x7A, form := fun _ => .none .xorAHlC },
  { mask := 0xFF, pat := 0x4B, form := fun _ => .none .cmpAHlB },
  { mask := 0xFF, pat := 0x4A, form := fun _ => .none .cmpAHlC },
  { mask := 0xFF, pat := 0x88, form := fun _ => .none .mulu },
  { mask := 0xFF, pat := 0x82, form := fun _ => .none .divuw },
  { mask := 0xFF, pat := 0x90, form := fun _ => .none .ror4 },
  { mask := 0xFF, pat := 0x80, form := fun _ => .none .rol4 },
  { mask := 0xFF, pat := 0x98, form := fun _ => .none .brAx },
  { mask := 0x8F, pat := 0x06, form := fun b => .two (fun o j => .btSfrBit o (fieldOf 3 4 b) j) },
  { mask := 0x8F, pat := 0x0E, form := fun b => .one (fun j => .btABit (fieldOf 3 4 b) j) },
  { mask := 0x8F, pat := 0x86, form := fun b => .one (fun j => .btHlBit (fieldOf 3 4 b) j) },
  { mask := 0x8F, pat := 0x03, form := fun b => .two (fun o j => if o = pswOffset then .bfPswBit (fieldOf 3 4 b) j else .bfSaddrBit o (fieldOf 3 4 b) j) },
  { mask := 0x8F, pat := 0x07, form := fun b => .two (fun o j => .bfSfrBit o (fieldOf 3 4 b) j) },
  { mask := 0x8F, pat := 0x0F, form := fun b => .one (fun j => .bfABit (fieldOf 3 4 b) j) },
  { mask := 0x8F, pat := 0x87, form := fun b => .one (fun j => .bfHlBit (fieldOf 3 4 b) j) },
  { mask := 0x8F, pat := 0x01, form := fun b => .two (fun o j => if o = pswOffset then .btclrPswBit (fieldOf 3 4 b) j else .btclrSaddrBit o (fieldOf 3 4 b) j) },
  { mask := 0x8F, pat := 0x05, form := fun b => .two (fun o j => .btclrSfrBit o (fieldOf 3 4 b) j) },
  { mask := 0x8F, pat := 0x0D, form := fun b => .one (fun j => .btclrABit (fieldOf 3 4 b) j) },
  { mask := 0x8F, pat := 0x85, form := fun b => .one (fun j => .btclrHlBit (fieldOf 3 4 b) j) }]

/-- Second bytes after 61H (31_prefix_maps R117). -/
def rowsAfter61 : List Row := [
  { mask := 0xF8, pat := 0x08, skip := fun b => fieldOf 3 0 b = 1, form := fun b => .none (.addAR (.ofCode (fieldOf 3 0 b))) },
  { mask := 0xF8, pat := 0x00, form := fun b => .none (.addRA (.ofCode (fieldOf 3 0 b))) },
  { mask := 0xF8, pat := 0x28, skip := fun b => fieldOf 3 0 b = 1, form := fun b => .none (.addcAR (.ofCode (fieldOf 3 0 b))) },
  { mask := 0xF8, pat := 0x20, form := fun b => .none (.addcRA (.ofCode (fieldOf 3 0 b))) },
  { mask := 0xF8, pat := 0x18, skip := fun b => fieldOf 3 0 b = 1, form := fun b => .none (.subAR (.ofCode (fieldOf 3 0 b))) },
  { mask := 0xF8, pat := 0x10, form := fun b => .none (.subRA (.ofCode (fieldOf 3 0 b))) },
  { mask := 0xF8, pat := 0x38, skip := fun b => fieldOf 3 0 b = 1, form := fun b => .none (.subcAR (.ofCode (fieldOf 3 0 b))) },
  { mask := 0xF8, pat := 0x30, form := fun b => .none (.subcRA (.ofCode (fieldOf 3 0 b))) },
  { mask := 0xF8, pat := 0x58, skip := fun b => fieldOf 3 0 b = 1, form := fun b => .none (.andAR (.ofCode (fieldOf 3 0 b))) },
  { mask := 0xF8, pat := 0x50, form := fun b => .none (.andRA (.ofCode (fieldOf 3 0 b))) },
  { mask := 0xF8, pat := 0x68, skip := fun b => fieldOf 3 0 b = 1, form := fun b => .none (.orAR (.ofCode (fieldOf 3 0 b))) },
  { mask := 0xF8, pat := 0x60, form := fun b => .none (.orRA (.ofCode (fieldOf 3 0 b))) },
  { mask := 0xF8, pat := 0x78, skip := fun b => fieldOf 3 0 b = 1, form := fun b => .none (.xorAR (.ofCode (fieldOf 3 0 b))) },
  { mask := 0xF8, pat := 0x70, form := fun b => .none (.xorRA (.ofCode (fieldOf 3 0 b))) },
  { mask := 0xF8, pat := 0x48, skip := fun b => fieldOf 3 0 b = 1, form := fun b => .none (.cmpAR (.ofCode (fieldOf 3 0 b))) },
  { mask := 0xF8, pat := 0x40, form := fun b => .none (.cmpRA (.ofCode (fieldOf 3 0 b))) },
  { mask := 0xFF, pat := 0x80, form := fun _ => .none .adjba },
  { mask := 0xFF, pat := 0x90, form := fun _ => .none .adjbs },
  { mask := 0x8F, pat := 0x8C, form := fun b => .none (.mov1CyABit (fieldOf 3 4 b)) },
  { mask := 0x8F, pat := 0x89, form := fun b => .none (.mov1ABitCy (fieldOf 3 4 b)) },
  { mask := 0x8F, pat := 0x8D, form := fun b => .none (.and1CyABit (fieldOf 3 4 b)) },
  { mask := 0x8F, pat := 0x8E, form := fun b => .none (.or1CyABit (fieldOf 3 4 b)) },
  { mask := 0x8F, pat := 0x8F, form := fun b => .none (.xor1CyABit (fieldOf 3 4 b)) },
  { mask := 0x8F, pat := 0x8A, form := fun b => .none (.set1ABit (fieldOf 3 4 b)) },
  { mask := 0x8F, pat := 0x8B, form := fun b => .none (.clr1ABit (fieldOf 3 4 b)) },
  { mask := 0xD7, pat := 0xD0, form := fun b => .none (.sel (fieldOf 1 5 b ++ fieldOf 1 3 b)) }]

/-- Second bytes after 71H (31_prefix_maps R118). -/
def rowsAfter71 : List Row := [
  { mask := 0x8F, pat := 0x04, form := fun b => .one (fun o => if o = pswOffset then .mov1CyPswBit (fieldOf 3 4 b) else .mov1CySaddrBit o (fieldOf 3 4 b)) },
  { mask := 0x8F, pat := 0x0C, form := fun b => .one (fun o => .mov1CySfrBit o (fieldOf 3 4 b)) },
  { mask := 0x8F, pat := 0x84, form := fun b => .none (.mov1CyHlBit (fieldOf 3 4 b)) },
  { mask := 0x8F, pat := 0x01, form := fun b => .one (fun o => if o = pswOffset then .mov1PswBitCy (fieldOf 3 4 b) else .mov1SaddrBitCy o (fieldOf 3 4 b)) },
  { mask := 0x8F, pat := 0x09, form := fun b => .one (fun o => .mov1SfrBitCy o (fieldOf 3 4 b)) },
  { mask := 0x8F, pat := 0x81, form := fun b => .none (.mov1HlBitCy (fieldOf 3 4 b)) },
  { mask := 0x8F, pat := 0x05, form := fun b => .one (fun o => if o = pswOffset then .and1CyPswBit (fieldOf 3 4 b) else .and1CySaddrBit o (fieldOf 3 4 b)) },
  { mask := 0x8F, pat := 0x0D, form := fun b => .one (fun o => .and1CySfrBit o (fieldOf 3 4 b)) },
  { mask := 0x8F, pat := 0x85, form := fun b => .none (.and1CyHlBit (fieldOf 3 4 b)) },
  { mask := 0x8F, pat := 0x06, form := fun b => .one (fun o => if o = pswOffset then .or1CyPswBit (fieldOf 3 4 b) else .or1CySaddrBit o (fieldOf 3 4 b)) },
  { mask := 0x8F, pat := 0x0E, form := fun b => .one (fun o => .or1CySfrBit o (fieldOf 3 4 b)) },
  { mask := 0x8F, pat := 0x86, form := fun b => .none (.or1CyHlBit (fieldOf 3 4 b)) },
  { mask := 0x8F, pat := 0x07, form := fun b => .one (fun o => if o = pswOffset then .xor1CyPswBit (fieldOf 3 4 b) else .xor1CySaddrBit o (fieldOf 3 4 b)) },
  { mask := 0x8F, pat := 0x0F, form := fun b => .one (fun o => .xor1CySfrBit o (fieldOf 3 4 b)) },
  { mask := 0x8F, pat := 0x87, form := fun b => .none (.xor1CyHlBit (fieldOf 3 4 b)) },
  { mask := 0x8F, pat := 0x0A, form := fun b => .one (fun o => .set1SfrBit o (fieldOf 3 4 b)) },
  { mask := 0x8F, pat := 0x82, form := fun b => .none (.set1HlBit (fieldOf 3 4 b)) },
  { mask := 0x8F, pat := 0x0B, form := fun b => .one (fun o => .clr1SfrBit o (fieldOf 3 4 b)) },
  { mask := 0x8F, pat := 0x83, form := fun b => .none (.clr1HlBit (fieldOf 3 4 b)) },
  { mask := 0xFF, pat := 0x10, form := fun _ => .none .halt },
  { mask := 0xFF, pat := 0x00, form := fun _ => .none .stop }]

/-- The form the opcode byte `b` selects in a table, if any. -/
def selectForm (rows : List Row) (b : Byte) : Option Form :=
  (rows.find? (fun row => row.selects b)).map (fun row => row.form b)

/-- Reads the operand bytes (30_encoding R102). -/
def Form.complete : Form → List Byte → Except DecodeError (Instr × List Byte)
  | .none i, rest => .ok (i, rest)
  | .one f, x :: rest => .ok (f x, rest)
  | .two f, x :: y :: rest => .ok (f x y, rest)
  | .three f, x :: y :: z :: rest => .ok (f x y z, rest)
  | _, _ => .error .truncated

/-- Decodes from an opcode byte that follows the bytes `before` (30_encoding R106). -/
def decodeIn (rows : List Row) (before : List Byte) (b : Byte) (rest : List Byte) :
    Except DecodeError (Instr × List Byte) :=
  match selectForm rows b with
  | some form => form.complete rest
  | none => .error (.undefined (before ++ [b]))

/-- The second-byte table a prefix byte opens (30_encoding R101, R106). -/
def prefixRows (b : Byte) : Option (List Row) :=
  if b = 0x31 then some rowsAfter31
  else if b = 0x61 then some rowsAfter61
  else if b = 0x71 then some rowsAfter71
  else none

/-- The instruction at the head of the bytes, and the bytes after it (30_encoding R106). -/
def decode : List Byte → Except DecodeError (Instr × List Byte)
  | [] => .error .truncated
  | b :: rest =>
    match prefixRows b with
    | none => decodeIn rowsFirst [] b rest
    | some rows =>
      match rest with
      | [] => .error .truncated
      | b2 :: rest2 => decodeIn rows [b] b2 rest2

/-- The bytes of an instruction, first byte first (30_encoding R110). -/
def encode : Instr → List Byte
  -- 8-bit data transfer (40)
  | .movRImm r d => [0xA0 ||| placed 0 r.code, d]
  | .movSaddrImm o d => [0x11, o, d]
  | .movSfrImm o d => [0x13, o, d]
  | .movAR r => [0x60 ||| placed 0 r.code]
  | .movRA r => [0x70 ||| placed 0 r.code]
  | .movASaddr o => [0xF0, o]
  | .movSaddrA o => [0xF2, o]
  | .movASfr o => [0xF4, o]
  | .movSfrA o => [0xF6, o]
  | .movAAbs a => [0x8E, loByte a, hiByte a]
  | .movAbsA a => [0x9E, loByte a, hiByte a]
  | .movPswImm d => [0x11, 0x1E, d]
  | .movAPsw => [0xF0, 0x1E]
  | .movPswA => [0xF2, 0x1E]
  | .movADe => [0x85]
  | .movDeA => [0x95]
  | .movAHl => [0x87]
  | .movHlA => [0x97]
  | .movAHlByte d => [0xAE, d]
  | .movHlByteA d => [0xBE, d]
  | .movAHlB => [0xAB]
  | .movHlBA => [0xBB]
  | .movAHlC => [0xAA]
  | .movHlCA => [0xBA]
  | .xchAR r => [0x30 ||| placed 0 r.code]
  | .xchASaddr o => [0x83, o]
  | .xchASfr o => [0x93, o]
  | .xchAAbs a => [0xCE, loByte a, hiByte a]
  | .xchADe => [0x05]
  | .xchAHl => [0x07]
  | .xchAHlByte d => [0xDE, d]
  | .xchAHlB => [0x31, 0x8B]
  | .xchAHlC => [0x31, 0x8A]
  -- 16-bit data transfer (41)
  | .movwRpWord p w => [0x10 ||| placed 1 p.code, loByte w, hiByte w]
  | .movwSaddrpWord o w => [0xEE, o, loByte w, hiByte w]
  | .movwSfrpWord o w => [0xFE, o, loByte w, hiByte w]
  | .movwAxSaddrp o => [0x89, o]
  | .movwSaddrpAx o => [0x99, o]
  | .movwAxSfrp o => [0xA9, o]
  | .movwSfrpAx o => [0xB9, o]
  | .movwAxRp p => [0xC0 ||| placed 1 p.code]
  | .movwRpAx p => [0xD0 ||| placed 1 p.code]
  | .movwAxAbs a => [0x02, loByte a, hiByte a]
  | .movwAbsAx a => [0x03, loByte a, hiByte a]
  | .xchwAxRp p => [0xE0 ||| placed 1 p.code]
  -- 8-bit operations (42)
  | .addAImm d => [0x0D, d]
  | .addSaddrImm o d => [0x88, o, d]
  | .addAR r => [0x61, 0x08 ||| placed 0 r.code]
  | .addRA r => [0x61, 0x00 ||| placed 0 r.code]
  | .addASaddr o => [0x0E, o]
  | .addAAbs a => [0x08, loByte a, hiByte a]
  | .addAHl => [0x0F]
  | .addAHlByte d => [0x09, d]
  | .addAHlB => [0x31, 0x0B]
  | .addAHlC => [0x31, 0x0A]
  | .addcAImm d => [0x2D, d]
  | .addcSaddrImm o d => [0xA8, o, d]
  | .addcAR r => [0x61, 0x28 ||| placed 0 r.code]
  | .addcRA r => [0x61, 0x20 ||| placed 0 r.code]
  | .addcASaddr o => [0x2E, o]
  | .addcAAbs a => [0x28, loByte a, hiByte a]
  | .addcAHl => [0x2F]
  | .addcAHlByte d => [0x29, d]
  | .addcAHlB => [0x31, 0x2B]
  | .addcAHlC => [0x31, 0x2A]
  | .subAImm d => [0x1D, d]
  | .subSaddrImm o d => [0x98, o, d]
  | .subAR r => [0x61, 0x18 ||| placed 0 r.code]
  | .subRA r => [0x61, 0x10 ||| placed 0 r.code]
  | .subASaddr o => [0x1E, o]
  | .subAAbs a => [0x18, loByte a, hiByte a]
  | .subAHl => [0x1F]
  | .subAHlByte d => [0x19, d]
  | .subAHlB => [0x31, 0x1B]
  | .subAHlC => [0x31, 0x1A]
  | .subcAImm d => [0x3D, d]
  | .subcSaddrImm o d => [0xB8, o, d]
  | .subcAR r => [0x61, 0x38 ||| placed 0 r.code]
  | .subcRA r => [0x61, 0x30 ||| placed 0 r.code]
  | .subcASaddr o => [0x3E, o]
  | .subcAAbs a => [0x38, loByte a, hiByte a]
  | .subcAHl => [0x3F]
  | .subcAHlByte d => [0x39, d]
  | .subcAHlB => [0x31, 0x3B]
  | .subcAHlC => [0x31, 0x3A]
  | .andAImm d => [0x5D, d]
  | .andSaddrImm o d => [0xD8, o, d]
  | .andAR r => [0x61, 0x58 ||| placed 0 r.code]
  | .andRA r => [0x61, 0x50 ||| placed 0 r.code]
  | .andASaddr o => [0x5E, o]
  | .andAAbs a => [0x58, loByte a, hiByte a]
  | .andAHl => [0x5F]
  | .andAHlByte d => [0x59, d]
  | .andAHlB => [0x31, 0x5B]
  | .andAHlC => [0x31, 0x5A]
  | .orAImm d => [0x6D, d]
  | .orSaddrImm o d => [0xE8, o, d]
  | .orAR r => [0x61, 0x68 ||| placed 0 r.code]
  | .orRA r => [0x61, 0x60 ||| placed 0 r.code]
  | .orASaddr o => [0x6E, o]
  | .orAAbs a => [0x68, loByte a, hiByte a]
  | .orAHl => [0x6F]
  | .orAHlByte d => [0x69, d]
  | .orAHlB => [0x31, 0x6B]
  | .orAHlC => [0x31, 0x6A]
  | .xorAImm d => [0x7D, d]
  | .xorSaddrImm o d => [0xF8, o, d]
  | .xorAR r => [0x61, 0x78 ||| placed 0 r.code]
  | .xorRA r => [0x61, 0x70 ||| placed 0 r.code]
  | .xorASaddr o => [0x7E, o]
  | .xorAAbs a => [0x78, loByte a, hiByte a]
  | .xorAHl => [0x7F]
  | .xorAHlByte d => [0x79, d]
  | .xorAHlB => [0x31, 0x7B]
  | .xorAHlC => [0x31, 0x7A]
  | .cmpAImm d => [0x4D, d]
  | .cmpSaddrImm o d => [0xC8, o, d]
  | .cmpAR r => [0x61, 0x48 ||| placed 0 r.code]
  | .cmpRA r => [0x61, 0x40 ||| placed 0 r.code]
  | .cmpASaddr o => [0x4E, o]
  | .cmpAAbs a => [0x48, loByte a, hiByte a]
  | .cmpAHl => [0x4F]
  | .cmpAHlByte d => [0x49, d]
  | .cmpAHlB => [0x31, 0x4B]
  | .cmpAHlC => [0x31, 0x4A]
  -- 16-bit operations (43)
  | .addwAxWord w => [0xCA, loByte w, hiByte w]
  | .subwAxWord w => [0xDA, loByte w, hiByte w]
  | .cmpwAxWord w => [0xEA, loByte w, hiByte w]
  -- Multiply, divide, increment, decrement (44)
  | .mulu => [0x31, 0x88]
  | .divuw => [0x31, 0x82]
  | .incR r => [0x40 ||| placed 0 r.code]
  | .incSaddr o => [0x81, o]
  | .decR r => [0x50 ||| placed 0 r.code]
  | .decSaddr o => [0x91, o]
  | .incwRp p => [0x80 ||| placed 1 p.code]
  | .decwRp p => [0x90 ||| placed 1 p.code]
  -- Rotate and BCD adjust (45)
  | .ror => [0x24]
  | .rol => [0x26]
  | .rorc => [0x25]
  | .rolc => [0x27]
  | .ror4 => [0x31, 0x90]
  | .rol4 => [0x31, 0x80]
  | .adjba => [0x61, 0x80]
  | .adjbs => [0x61, 0x90]
  -- Bit manipulation (46)
  | .mov1CySaddrBit o n => [0x71, 0x04 ||| placed 4 n, o]
  | .mov1CySfrBit o n => [0x71, 0x0C ||| placed 4 n, o]
  | .mov1CyABit n => [0x61, 0x8C ||| placed 4 n]
  | .mov1CyPswBit n => [0x71, 0x04 ||| placed 4 n, 0x1E]
  | .mov1CyHlBit n => [0x71, 0x84 ||| placed 4 n]
  | .mov1SaddrBitCy o n => [0x71, 0x01 ||| placed 4 n, o]
  | .mov1SfrBitCy o n => [0x71, 0x09 ||| placed 4 n, o]
  | .mov1ABitCy n => [0x61, 0x89 ||| placed 4 n]
  | .mov1PswBitCy n => [0x71, 0x01 ||| placed 4 n, 0x1E]
  | .mov1HlBitCy n => [0x71, 0x81 ||| placed 4 n]
  | .and1CySaddrBit o n => [0x71, 0x05 ||| placed 4 n, o]
  | .and1CySfrBit o n => [0x71, 0x0D ||| placed 4 n, o]
  | .and1CyABit n => [0x61, 0x8D ||| placed 4 n]
  | .and1CyPswBit n => [0x71, 0x05 ||| placed 4 n, 0x1E]
  | .and1CyHlBit n => [0x71, 0x85 ||| placed 4 n]
  | .or1CySaddrBit o n => [0x71, 0x06 ||| placed 4 n, o]
  | .or1CySfrBit o n => [0x71, 0x0E ||| placed 4 n, o]
  | .or1CyABit n => [0x61, 0x8E ||| placed 4 n]
  | .or1CyPswBit n => [0x71, 0x06 ||| placed 4 n, 0x1E]
  | .or1CyHlBit n => [0x71, 0x86 ||| placed 4 n]
  | .xor1CySaddrBit o n => [0x71, 0x07 ||| placed 4 n, o]
  | .xor1CySfrBit o n => [0x71, 0x0F ||| placed 4 n, o]
  | .xor1CyABit n => [0x61, 0x8F ||| placed 4 n]
  | .xor1CyPswBit n => [0x71, 0x07 ||| placed 4 n, 0x1E]
  | .xor1CyHlBit n => [0x71, 0x87 ||| placed 4 n]
  | .set1SaddrBit o n => [0x0A ||| placed 4 n, o]
  | .set1SfrBit o n => [0x71, 0x0A ||| placed 4 n, o]
  | .set1ABit n => [0x61, 0x8A ||| placed 4 n]
  | .set1PswBit n => [0x0A ||| placed 4 n, 0x1E]
  | .set1HlBit n => [0x71, 0x82 ||| placed 4 n]
  | .clr1SaddrBit o n => [0x0B ||| placed 4 n, o]
  | .clr1SfrBit o n => [0x71, 0x0B ||| placed 4 n, o]
  | .clr1ABit n => [0x61, 0x8B ||| placed 4 n]
  | .clr1PswBit n => [0x0B ||| placed 4 n, 0x1E]
  | .clr1HlBit n => [0x71, 0x83 ||| placed 4 n]
  | .set1Cy => [0x20]
  | .clr1Cy => [0x21]
  | .not1Cy => [0x01]
  -- Call, return and stack manipulation (47)
  | .call a => [0x9A, loByte a, hiByte a]
  | .callf f => [0x0C ||| placed 4 (f.extractLsb' 8 3), f.extractLsb' 0 8]
  | .callt t => [0xC1 ||| placed 1 t]
  | .brk => [0xBF]
  | .ret => [0xAF]
  | .retb => [0x9F]
  | .reti => [0x8F]
  | .pushPsw => [0x22]
  | .pushRp p => [0xB1 ||| placed 1 p.code]
  | .popPsw => [0x23]
  | .popRp p => [0xB0 ||| placed 1 p.code]
  | .movwSpWord w => [0xEE, 0x1C, loByte w, hiByte w]
  | .movwSpAx => [0x99, 0x1C]
  | .movwAxSp => [0x89, 0x1C]
  -- Branches (48)
  | .brAbs a => [0x9B, loByte a, hiByte a]
  | .brRel j => [0xFA, j]
  | .brAx => [0x31, 0x98]
  | .bc j => [0x8D, j]
  | .bnc j => [0x9D, j]
  | .bz j => [0xAD, j]
  | .bnz j => [0xBD, j]
  | .btSaddrBit o n j => [0x8C ||| placed 4 n, o, j]
  | .btSfrBit o n j => [0x31, 0x06 ||| placed 4 n, o, j]
  | .btABit n j => [0x31, 0x0E ||| placed 4 n, j]
  | .btPswBit n j => [0x8C ||| placed 4 n, 0x1E, j]
  | .btHlBit n j => [0x31, 0x86 ||| placed 4 n, j]
  | .bfSaddrBit o n j => [0x31, 0x03 ||| placed 4 n, o, j]
  | .bfSfrBit o n j => [0x31, 0x07 ||| placed 4 n, o, j]
  | .bfABit n j => [0x31, 0x0F ||| placed 4 n, j]
  | .bfPswBit n j => [0x31, 0x03 ||| placed 4 n, 0x1E, j]
  | .bfHlBit n j => [0x31, 0x87 ||| placed 4 n, j]
  | .btclrSaddrBit o n j => [0x31, 0x01 ||| placed 4 n, o, j]
  | .btclrSfrBit o n j => [0x31, 0x05 ||| placed 4 n, o, j]
  | .btclrABit n j => [0x31, 0x0D ||| placed 4 n, j]
  | .btclrPswBit n j => [0x31, 0x01 ||| placed 4 n, 0x1E, j]
  | .btclrHlBit n j => [0x31, 0x85 ||| placed 4 n, j]
  | .dbnzB j => [0x8B, j]
  | .dbnzC j => [0x8A, j]
  | .dbnzSaddr o j => [0x04, o, j]
  -- CPU control (49)
  | .sel b => [0x61, 0xD0 ||| placed 5 (b.extractLsb' 1 1) ||| placed 3 (b.extractLsb' 0 1)]
  | .nop => [0x00]
  | .ei => [0x7A, 0x1E]
  | .di => [0x7B, 0x1E]
  | .halt => [0x71, 0x10]
  | .stop => [0x71, 0x00]

/-- The length of an instruction in bytes (30_encoding R103, R110: column "Bytes"). -/
def Instr.length : Instr → Nat
  -- 8-bit data transfer (40)
  | .movRImm _ _ => 2
  | .movSaddrImm _ _ => 3
  | .movSfrImm _ _ => 3
  | .movAR _ => 1
  | .movRA _ => 1
  | .movASaddr _ => 2
  | .movSaddrA _ => 2
  | .movASfr _ => 2
  | .movSfrA _ => 2
  | .movAAbs _ => 3
  | .movAbsA _ => 3
  | .movPswImm _ => 3
  | .movAPsw => 2
  | .movPswA => 2
  | .movADe => 1
  | .movDeA => 1
  | .movAHl => 1
  | .movHlA => 1
  | .movAHlByte _ => 2
  | .movHlByteA _ => 2
  | .movAHlB => 1
  | .movHlBA => 1
  | .movAHlC => 1
  | .movHlCA => 1
  | .xchAR _ => 1
  | .xchASaddr _ => 2
  | .xchASfr _ => 2
  | .xchAAbs _ => 3
  | .xchADe => 1
  | .xchAHl => 1
  | .xchAHlByte _ => 2
  | .xchAHlB => 2
  | .xchAHlC => 2
  -- 16-bit data transfer (41)
  | .movwRpWord _ _ => 3
  | .movwSaddrpWord _ _ => 4
  | .movwSfrpWord _ _ => 4
  | .movwAxSaddrp _ => 2
  | .movwSaddrpAx _ => 2
  | .movwAxSfrp _ => 2
  | .movwSfrpAx _ => 2
  | .movwAxRp _ => 1
  | .movwRpAx _ => 1
  | .movwAxAbs _ => 3
  | .movwAbsAx _ => 3
  | .xchwAxRp _ => 1
  -- 8-bit operations (42)
  | .addAImm _ => 2
  | .addSaddrImm _ _ => 3
  | .addAR _ => 2
  | .addRA _ => 2
  | .addASaddr _ => 2
  | .addAAbs _ => 3
  | .addAHl => 1
  | .addAHlByte _ => 2
  | .addAHlB => 2
  | .addAHlC => 2
  | .addcAImm _ => 2
  | .addcSaddrImm _ _ => 3
  | .addcAR _ => 2
  | .addcRA _ => 2
  | .addcASaddr _ => 2
  | .addcAAbs _ => 3
  | .addcAHl => 1
  | .addcAHlByte _ => 2
  | .addcAHlB => 2
  | .addcAHlC => 2
  | .subAImm _ => 2
  | .subSaddrImm _ _ => 3
  | .subAR _ => 2
  | .subRA _ => 2
  | .subASaddr _ => 2
  | .subAAbs _ => 3
  | .subAHl => 1
  | .subAHlByte _ => 2
  | .subAHlB => 2
  | .subAHlC => 2
  | .subcAImm _ => 2
  | .subcSaddrImm _ _ => 3
  | .subcAR _ => 2
  | .subcRA _ => 2
  | .subcASaddr _ => 2
  | .subcAAbs _ => 3
  | .subcAHl => 1
  | .subcAHlByte _ => 2
  | .subcAHlB => 2
  | .subcAHlC => 2
  | .andAImm _ => 2
  | .andSaddrImm _ _ => 3
  | .andAR _ => 2
  | .andRA _ => 2
  | .andASaddr _ => 2
  | .andAAbs _ => 3
  | .andAHl => 1
  | .andAHlByte _ => 2
  | .andAHlB => 2
  | .andAHlC => 2
  | .orAImm _ => 2
  | .orSaddrImm _ _ => 3
  | .orAR _ => 2
  | .orRA _ => 2
  | .orASaddr _ => 2
  | .orAAbs _ => 3
  | .orAHl => 1
  | .orAHlByte _ => 2
  | .orAHlB => 2
  | .orAHlC => 2
  | .xorAImm _ => 2
  | .xorSaddrImm _ _ => 3
  | .xorAR _ => 2
  | .xorRA _ => 2
  | .xorASaddr _ => 2
  | .xorAAbs _ => 3
  | .xorAHl => 1
  | .xorAHlByte _ => 2
  | .xorAHlB => 2
  | .xorAHlC => 2
  | .cmpAImm _ => 2
  | .cmpSaddrImm _ _ => 3
  | .cmpAR _ => 2
  | .cmpRA _ => 2
  | .cmpASaddr _ => 2
  | .cmpAAbs _ => 3
  | .cmpAHl => 1
  | .cmpAHlByte _ => 2
  | .cmpAHlB => 2
  | .cmpAHlC => 2
  -- 16-bit operations (43)
  | .addwAxWord _ => 3
  | .subwAxWord _ => 3
  | .cmpwAxWord _ => 3
  -- Multiply, divide, increment, decrement (44)
  | .mulu => 2
  | .divuw => 2
  | .incR _ => 1
  | .incSaddr _ => 2
  | .decR _ => 1
  | .decSaddr _ => 2
  | .incwRp _ => 1
  | .decwRp _ => 1
  -- Rotate and BCD adjust (45)
  | .ror => 1
  | .rol => 1
  | .rorc => 1
  | .rolc => 1
  | .ror4 => 2
  | .rol4 => 2
  | .adjba => 2
  | .adjbs => 2
  -- Bit manipulation (46)
  | .mov1CySaddrBit _ _ => 3
  | .mov1CySfrBit _ _ => 3
  | .mov1CyABit _ => 2
  | .mov1CyPswBit _ => 3
  | .mov1CyHlBit _ => 2
  | .mov1SaddrBitCy _ _ => 3
  | .mov1SfrBitCy _ _ => 3
  | .mov1ABitCy _ => 2
  | .mov1PswBitCy _ => 3
  | .mov1HlBitCy _ => 2
  | .and1CySaddrBit _ _ => 3
  | .and1CySfrBit _ _ => 3
  | .and1CyABit _ => 2
  | .and1CyPswBit _ => 3
  | .and1CyHlBit _ => 2
  | .or1CySaddrBit _ _ => 3
  | .or1CySfrBit _ _ => 3
  | .or1CyABit _ => 2
  | .or1CyPswBit _ => 3
  | .or1CyHlBit _ => 2
  | .xor1CySaddrBit _ _ => 3
  | .xor1CySfrBit _ _ => 3
  | .xor1CyABit _ => 2
  | .xor1CyPswBit _ => 3
  | .xor1CyHlBit _ => 2
  | .set1SaddrBit _ _ => 2
  | .set1SfrBit _ _ => 3
  | .set1ABit _ => 2
  | .set1PswBit _ => 2
  | .set1HlBit _ => 2
  | .clr1SaddrBit _ _ => 2
  | .clr1SfrBit _ _ => 3
  | .clr1ABit _ => 2
  | .clr1PswBit _ => 2
  | .clr1HlBit _ => 2
  | .set1Cy => 1
  | .clr1Cy => 1
  | .not1Cy => 1
  -- Call, return and stack manipulation (47)
  | .call _ => 3
  | .callf _ => 2
  | .callt _ => 1
  | .brk => 1
  | .ret => 1
  | .retb => 1
  | .reti => 1
  | .pushPsw => 1
  | .pushRp _ => 1
  | .popPsw => 1
  | .popRp _ => 1
  | .movwSpWord _ => 4
  | .movwSpAx => 2
  | .movwAxSp => 2
  -- Branches (48)
  | .brAbs _ => 3
  | .brRel _ => 2
  | .brAx => 2
  | .bc _ => 2
  | .bnc _ => 2
  | .bz _ => 2
  | .bnz _ => 2
  | .btSaddrBit _ _ _ => 3
  | .btSfrBit _ _ _ => 4
  | .btABit _ _ => 3
  | .btPswBit _ _ => 3
  | .btHlBit _ _ => 3
  | .bfSaddrBit _ _ _ => 4
  | .bfSfrBit _ _ _ => 4
  | .bfABit _ _ => 3
  | .bfPswBit _ _ => 4
  | .bfHlBit _ _ => 3
  | .btclrSaddrBit _ _ _ => 4
  | .btclrSfrBit _ _ _ => 4
  | .btclrABit _ _ => 3
  | .btclrPswBit _ _ => 4
  | .btclrHlBit _ _ => 3
  | .dbnzB _ => 2
  | .dbnzC _ => 2
  | .dbnzSaddr _ _ => 3
  -- CPU control (49)
  | .sel _ => 2
  | .nop => 1
  | .ei => 2
  | .di => 2
  | .halt => 2
  | .stop => 2

/-- The lowest `n` bytes of a number, the most significant of them first. -/
def bytesOf : Nat → Nat → List Byte
  | 0, _ => []
  | n + 1, w => bytesOf n (w / 256) ++ [BitVec.ofNat 8 w]

/-- The bytes of the instruction whose bits opcode_table.json numbers as `w`: the table's numbers have the first byte
at the top (98_reader: "read as one number with bit 0 its least significant bit"); operand bytes the table gives no
bits are 0, up to the longest instruction, 4 bytes. -/
def tableBytes (nbits w : Nat) : List Byte := (bytesOf (nbits / 8) w ++ [0, 0, 0, 0]).take 4

/-- The instruction the decoder reads from a row's number `w` of `nbits` bits. -/
def decodeTableWord (nbits w : Nat) : Option Instr :=
  match decode (tableBytes nbits w) with
  | .ok (i, _) => some i
  | .error _ => none

end Sys2Proof
end

