-- ==== Sys2Proof/Machine/Fetch.lean ====
section
/-! DEFINITION. Fetching an instruction's bytes (20_memory R74; 30_encoding R101; 92 D3, D5, D6). -/

namespace Sys2Proof.Machine

/-- Why the byte at `a` cannot be fetched, if it cannot (20_memory R74; 92 D5; 93 U5). -/
def fetchFault (s : State) (a : Addr) : Option Fault :=
  if inSfrArea a then
    if isControl a || (sfrAt s.cfg a).isSome then some (.notExecutable s.pc a) else some (.sfrUnallocated s.pc a)
  else if inIhram s.cfg a then
    if s.cfg.ihramExecutable.any (fun r => r.lo ≤ a.toNat && a.toNat ≤ r.hi) then none
    else some (.notExecutable s.pc a)
  else
    match regionAt s.cfg a with
    | none => some (.unallocated s.pc a)
    | some r => if r.executable then none else some (.notExecutable s.pc a)

/-- Up to `n` bytes from `a` upward, modulo 65536, before the first that cannot be fetched. -/
def fetchBytes (s : State) (a : Addr) : Nat → List Byte
  | 0 => []
  | n + 1 =>
    match fetchFault s a with
    | some _ => []
    | none => byteAt s a :: fetchBytes s (a + 1) n

/-- The bytes an instruction at PC can consist of; the longest has 4 (30_encoding R101). -/
def fetchWindow (s : State) : List Byte := fetchBytes s s.pc 4

/-- The fault of an instruction whose bytes end before it does: that of the first byte that cannot be fetched. -/
def truncatedFault (s : State) : Fault :=
  match fetchFault s (s.pc + BitVec.ofNat 16 (fetchWindow s).length) with
  | some f => f
  | none => .undefinedOpcode s.pc (fetchWindow s)

/-- The bytes that the product decodes in place of an unassigned code, if it does (30_encoding R125; 92 D6). -/
def aliasOf (c : Config) (code : List Byte) : Option (List Byte) :=
  match c.opcodeAliases.find? (fun x => x.code == code) with
  | none => none
  | some x => if x.actsAs.length = code.length then some x.actsAs else none

/-- The instruction that `bytes`, the beginning of those at PC, stand for: an unassigned code may stand for another one,
and is else a fault (`UndefinedOpcode`: 30_encoding R125; 92 D6). -/
def interpret (s : State) (bytes : List Byte) : Except Fault Instr :=
  match decode bytes with
  | .ok (i, _) => .ok i
  | .error .truncated => .error (truncatedFault s)
  | .error (.undefined code) =>
    match aliasOf s.cfg code with
    | none => .error (.undefinedOpcode s.pc code)
    | some other =>
      match decode (other ++ bytes.drop code.length) with
      | .ok (i, _) => .ok i
      | .error .truncated => .error (truncatedFault s)
      | .error (.undefined _) => .error (.undefinedOpcode s.pc code)

/-- The instruction at PC, or the fault of fetching it (20_memory R74; 30_encoding R125). -/
def fetch (s : State) : Except Fault Instr := interpret s (fetchWindow s)

/-- Bytes placed in memory from `a` upward, modulo 65536, as the loading of a program image places them. -/
def placeBytes (s : State) (a : Addr) : List Byte → State
  | [] => s
  | v :: vs => placeBytes { s with mem := s.mem.write a.toNat v } (a + 1) vs

end Sys2Proof.Machine
end

