-- ==== Sys2Proof/Machine/Interrupts.lean ====
section
/-! DEFINITION. Interrupt requests, their selection and acknowledgement, and release from standby (60_exceptions R408 to
R417, R432). A request arrives from the environment, at an instruction boundary (60 R408): `State.request`. -/

namespace Sys2Proof.Machine

/-- The number of a source's entry in the vector table (20_memory R62), which is also the number of the pending bit of a
non-maskable one. DESIGN CHOICE, unsafe: two non-maskable sources with one vector would share that bit; `Config.ok` rules
it out (notes/assumptions/39.md). -/
def vectorIndex (src : IntSource) : Nat := src.vector.toNat / 2 % 32

/-- The value of an interrupt flag, a bit of an SFR byte (60 R409). -/
def flagAt (s : State) (f : FlagLoc) : Bool := bitOf (byteAt s f.addr) f.bit

/-- An interrupt flag written by the interrupt logic itself (60 R409, R410). -/
def putFlag (s : State) (f : FlagLoc) (b : Bool) : State := putByte s f.addr (withBit (byteAt s f.addr) f.bit b)

/-- `pending(s)`: a maskable source's request is its flag IF (60 R409). -/
def requested (s : State) (src : IntSource) : Bool :=
  match src.kind with
  | .nonMaskable => s.nmiPending.getLsbD (vectorIndex src)
  | .maskable request _ _ => flagAt s request

/-- Neither a non-maskable source nor one with MK = 0 is masked (60 R409, R432). -/
def unmasked (s : State) (src : IntSource) : Bool :=
  match src.kind with
  | .nonMaskable => true
  | .maskable _ mask _ => !flagAt s mask

/-- ISP, the in-service priority flag (10_state R35). -/
def isp (s : State) : Bool := bitOf s.psw 1

/-- IE, the interrupt enable flag (10_state R32). -/
def ie (s : State) : Bool := bitOf s.psw ieBit

/-- The acknowledgement condition (60 R412). -/
def admissible (s : State) (src : IntSource) : Bool :=
  !s.hold && !s.nmis && requested s src &&
    match src.kind with
    | .nonMaskable => true
    | .maskable _ _ priority => ie s && unmasked s src && (isp s || !flagAt s priority)

/-- May a request of this source end the present mode (60 R432; 92 D16)? -/
def wakes (s : State) (src : IntSource) : Bool :=
  match s.mode with
  | .run => true
  | .halt => src.releasesHalt
  | .stop => src.releasesStop

/-- The rank of a source among simultaneous requests: non-maskable, then high, then low priority (60 R414; 92 D14). -/
def rank (s : State) (src : IntSource) : Nat :=
  match src.kind with
  | .nonMaskable => 0
  | .maskable _ _ priority => if flagAt s priority then 2 else 1

/-- The source acknowledged at this instruction boundary, if one is: the first of the lowest rank in the order of
`IntSources` (60 R412, R414). In Halt and Stop only a source that ends the mode counts (60 R411, R432). -/
def selected (s : State) : Option IntSource :=
  let candidates := s.cfg.sources.filter (fun src => admissible s src && wakes s src)
  (candidates.find? (fun src => rank s src == 0)).or
    ((candidates.find? (fun src => rank s src == 1)).or candidates.head?)

/-- What acknowledgement changes besides the sequence shared with BRK: NMIS or ISP, and the request (60 R410, R413,
R414). -/
def recordAcknowledge (s : State) (src : IntSource) : State :=
  match src.kind with
  | .nonMaskable =>
    { s with nmis := true, nmiPending := s.nmiPending &&& ~~~((1#32) <<< vectorIndex src) }
  | .maskable request _ priority =>
    putFlag (withPsw s (withBit s.psw 1 (flagAt s priority))) request false

/-- The hardware entry sequence, instead of fetching the next instruction (60 R410; 92 D12). -/
def acknowledge (s : State) (src : IntSource) : Except Fault State :=
  enterVector s s.pc src.vector (fun t => { recordAcknowledge t src with mode := .run })

/-- A request that ends Halt or Stop without being acknowledged (60 R432; 92 D16). DESIGN CHOICE, unsafe: a request counts
while it is pending, so one that was already pending and unmasked when HALT or STOP executed ends the mode in the next
step; 60 R432 does not say whether only a request that arrives in the mode does (notes/assumptions/24.md). -/
def released (s : State) : Bool :=
  s.cfg.sources.any (fun src => wakes s src && requested s src && unmasked s src)

/-- The environment makes source number `k` of `IntSources` pending (60 R408). -/
def State.request (s : State) (k : Nat) : State :=
  match s.cfg.sources[k]? with
  | none => s
  | some src =>
    match src.kind with
    | .nonMaskable => { s with nmiPending := s.nmiPending ||| ((1#32) <<< vectorIndex src) }
    | .maskable request _ _ => putFlag s request true

/-- `HoldSet` (60 R415; 92 D17): the meanings set `hold` after the seven instructions the sources name; a product may name
more, which a step adds here. -/
def applyHoldSet (c : Config) (i : Instr) : Result → Result
  | .next t => .next { t with hold := t.hold || c.moreHold.any (fun p => p.matches (encode i)) }
  | r => r

end Sys2Proof.Machine
end

