-- ==== Sys2Proof/Machine/Step.lean ====
section
/-! DEFINITION. One step of the machine, at an instruction boundary (60_exceptions R411, R412, R432). -/

namespace Sys2Proof.Machine

/-- One step: the acknowledgement of an interrupt, if one is selected; else the instruction at PC. In Halt and Stop no
instruction runs: the step returns to Run mode if a request releases it, and else leaves the state as it is
(60_exceptions R432; 92 D16). DESIGN CHOICE, unsafe: every step begins at an instruction boundary, so the condition is
also checked right after an acknowledgement, where a non-maskable request may be acknowledged before the handler's first
instruction, right after RESET, where one may be acknowledged before the program's first instruction, and right after a
step that only ends Halt or Stop; 60_exceptions R411 has the check after each completed instruction, and neither it nor
70_reset R452 and R454 say whether these are boundaries (notes/assumptions/37.md). -/
def step (s : State) : Host.Outcome State Fault Refusal :=
  match selected s with
  | some src => outcome (acknowledge s src)
  | none =>
    match s.mode with
    | .run =>
      match fetch s with
      | .ok i => applyHoldSet s.cfg i (exec i s)
      | .error f => .fault f
    | .halt => .next (if released s then { s with mode := .run } else s)
    | .stop => .next (if released s then { s with mode := .run } else s)

/-- `s` with the instruction whose bits opcode_table.json numbers as `w` placed at PC, ready to run: Run mode, and no
interrupt acknowledged before it. -/
def State.withFetchWord (s : State) (nbits w : Nat) : State :=
  let t := { placeBytes s s.pc (tableBytes nbits w) with mode := .run }
  { t with hold := t.hold || (selected t).isSome }

end Sys2Proof.Machine
end

