-- ==== Sys2Proof/Machine/Reset.lean ====
section
/-! DEFINITION. What the environment does to the machine besides raising requests: the RESET input (70_reset R450 to
R455), and a peripheral changing an SFR by itself (20_memory R79). -/

namespace Sys2Proof.Machine

/-- `ResetValues` (00_scope R6; 70_reset R454): what the sources leave undefined at RESET. The RAM cells include the
general registers; those outside RAM are ignored. -/
structure ResetValues where
  sp : Word
  ram : Memory
  /-- The pending requests of the non-maskable sources (91 N21). -/
  nmiPending : BitVec 32
  deriving DecidableEq, Repr

/-- A byte that RESET does not touch: program image and external memory (70_reset R454). -/
def keptAtReset (c : Config) (a : Nat) : Bool :=
  a < 0xFF00 && !inIhram c (BitVec.ofNat 16 a) &&
    match regionAt c (BitVec.ofNat 16 a) with
    | none => false
    | some r => r.kind != .ram

/-- A byte of RAM: undefined after RESET (70_reset R454, R455). -/
def ramAtReset (c : Config) (a : Nat) : Bool :=
  a < 0xFF00 && (inIhram c (BitVec.ofNat 16 a) ||
    match regionAt c (BitVec.ofNat 16 a) with
    | none => false
    | some r => r.kind == .ram)

/-- The reset values of the allocated SFRs other than PSW and SP (10_state R45). DESIGN CHOICE, safe: they are what a
plain SFR reads as after RESET; a device SFR gets its byte too, but reads as the free `Config.sfrRead` of a history that
begins with the reset, because 00_scope R6 and 20_memory R79 do not say that its read returns the reset value
(notes/assumptions/13.md). -/
def sfrResetCells (c : Config) : List Host.Cell :=
  (c.sfrs.filter (fun f => inSfrArea f.addr && !isControl f.addr)).map (fun f => (f.addr.toNat, f.resetValue))

/-- Memory after RESET input: the kept bytes, then the RAM bytes of `v`, then the SFRs (70_reset R452, R454). -/
def memoryAtReset (c : Config) (m : Memory) (v : ResetValues) : Memory :=
  ((m.restrict (keptAtReset c)).writeAll (v.ram.restrict (ramAtReset c))).writeAll (sfrResetCells c)

/-- RESET input (70_reset R452, R453): the state it leaves, whatever the CPU was doing. -/
def State.resetInput (v : ResetValues) (s : State) : State :=
  let m := memoryAtReset s.cfg s.mem v
  { s with
    mem := m
    psw := 0x02
    sp := v.sp
    nmis := false
    nmiPending := v.nmiPending
    sfrLog := .reset :: s.sfrLog
    hold := false
    mode := .run
    pc := mkWord (m.read 1) (m.read 0) }

/-- What the peripheral behind an allocated SFR does by itself, at an instruction boundary (20_memory R79): a device takes
the input `v`; an SFR that is plain storage takes it as its byte. -/
def State.peripheral (a : Addr) (v : Byte) (s : State) : State :=
  if isDevice s.cfg a then { s with sfrLog := .external a v :: s.sfrLog }
  else if inSfrArea a && !isControl a && (sfrAt s.cfg a).isSome then putByte s a v else s

end Sys2Proof.Machine
end

