-- ==== Sys2Proof/Safety.lean ====
section
/-! DEFINITION. The terms the claims use: the invariant of a state, what an instruction changes and leaves unchanged,
when an access is possible, the flags as the rules give them, and the instructions of one shape. -/

namespace Sys2Proof.Machine

/-- Memory lists addresses of the 16-bit space only, and not those of PSW and SP, which have registers of their own
(20_memory R60, R72). -/
def memoryAddress (a : Nat) : Bool := a < 0x10000 && !(0xFF1C ≤ a && a ≤ 0xFF1E)

/-- The invariant: memory in canonical form, over its own addresses; PSW bit 2 is 0 (10_state R34). -/
def StateInv (s : State) : Prop :=
  s.mem.wf = true ∧ s.mem.keysIn memoryAddress = true ∧ bitOf s.psw 2 = false

/-- What a store of `v` at `a` leaves there: PSW's bit 2 stays 0 (20_memory R73). -/
def stored (a : Addr) (v : Byte) : Byte := if a = pswAddr then v &&& 0xFB else v

/-- The contents `f` of the address space after the byte stores `ws`, the last one last. -/
def overlay (ws : List (Addr × Byte)) (f : Addr → Byte) (a : Addr) : Byte :=
  ws.foldl (fun v w => if w.1 = a then w.2 else v) (f a)

/-- The whole address space of `t`, with the registers, PSW and SP in it, is that of `s` but for the stores `ws`. -/
def Written (s t : State) (ws : List (Addr × Byte)) : Prop := ∀ a, byteAt t a = overlay ws (byteAt s) a

/-- The state that no address names is the same, PC and `hold` apart. -/
def SameHidden (s t : State) : Prop :=
  t.cfg = s.cfg ∧ t.nmis = s.nmis ∧ t.nmiPending = s.nmiPending ∧ t.mode = s.mode ∧ t.sfrLog = s.sfrLog ∧
    t.freeCount = s.freeCount

/-- From `s` to `t`: the new PC and `hold`, the bytes stored, and nothing else. -/
def Effect (s t : State) (pc : Addr) (hold : Bool) (ws : List (Addr × Byte)) : Prop :=
  t.pc = pc ∧ t.hold = hold ∧ SameHidden s t ∧ Written s t ws

/-- The two bytes of SP, set to `v` (10_state R38). -/
def spBytes (v : Word) : List (Addr × Byte) := [(spLowAddr, loByte v), (spHighAddr, hiByte v)]

/-- The two bytes of pair `p` of bank `b`, set to `v` (10_state R23). -/
def pairBytes (b : BitVec 2) (p : RegPair) (v : Word) : List (Addr × Byte) :=
  [(regAddr b p.lowReg, loByte v), (regAddr b p.highReg, hiByte v)]

/-- The address after the instruction (00_scope R10), modulo 65536 by decision (10_state R29; 92 D3; log 9). -/
def after (i : Instr) (s : State) : Addr := s.pc + BitVec.ofNat 16 i.length

/-- The byte at `a` may be read in the unit `u` (20_memory R72, R79). -/
def Readable (s : State) (u : AccessUnit) (a : Addr) : Prop := checkRead s u a = .ok ()

/-- The byte at `a` may be written in the unit `u` (20_memory R73, R79). -/
def Writable (s : State) (u : AccessUnit) (a : Addr) : Prop := checkWrite s u a = .ok ()

/-- The word at `a` may be read (20_memory R75, R77). -/
def ReadableWord (s : State) (a : Addr) : Prop :=
  a.getLsbD 0 = false ∧ Readable s .word a ∧ Readable s .word (a + 1)

/-- The word at `a` may be written (20_memory R75, R77). -/
def WritableWord (s : State) (a : Addr) : Prop :=
  a.getLsbD 0 = false ∧ Writable s .word a ∧ Writable s .word (a + 1)

/-- The word at `a` (20_memory R75). -/
def wordAt (s : State) (a : Addr) : Word := byteAt s (a + 1) ++ byteAt s a

/-- What a read of the word at `a` returns, its low byte read first (20_memory R75, R79). -/
def wordValueAt (s : State) (a : Addr) : Word := valueAt (noteRead s a) (a + 1) ++ valueAt s a

/-- The state after a read of the word at `a` (20_memory R75, R79). -/
def noteReadWord (s : State) (a : Addr) : State := noteRead (noteRead s a) (a + 1)

/-- The state after the word `v` is sent to `a` (20_memory R75, R79). -/
def noteWriteWord (s : State) (a : Addr) (v : Word) : State := noteWrite (noteWrite s a (loByte v)) (a + 1) (hiByte v)

/-- The state after the byte at `a` is read and `v` is then sent there (20_memory R78, R79). -/
def noteUpdate (s : State) (a : Addr) (v : Byte) : State := noteWrite (noteRead s a) a v

/-- The operand is one the encoding may name: not an sfr-offset D0H to DFH (20_memory R83). -/
def Named : MemOperand → Prop
  | .sfr o => ¬(0xD0 ≤ o.toNat ∧ o.toNat ≤ 0xDF)
  | _ => True

/-- PSW with Z, AC and CY as given, its other bits kept (10_state R30). -/
def pswFlags (p : Byte) (z ac cy : Bool) : Byte :=
  (p &&& 0xAE) ||| (if z then 0x40 else 0x00) ||| (if ac then 0x10 else 0x00) ||| (if cy then 0x01 else 0x00)

/-- PSW once `v` has been stored at `a`, before the instruction's flags go on top (42_operation_8 R190; 92 D1). -/
def pswAfterStore (s : State) (a : Addr) (v : Byte) : Byte := if a = pswAddr then v &&& 0xFB else s.psw

/-- The result of an 8-bit operation (42_operation_8 R191 to R198). -/
def aluResult (op : AluOp) (d s : Byte) (c : Bool) : Byte :=
  match op with
  | .add => d + s
  | .addc => d + s + (BitVec.ofBool c).setWidth 8
  | .sub => d - s
  | .subc => d - s - (BitVec.ofBool c).setWidth 8
  | .and => d &&& s
  | .or => d ||| s
  | .xor => d ^^^ s
  | .cmp => d - s

/-- PSW `p` with the flags of an 8-bit operation (42_operation_8 R191 to R199): a carry out of bit 7 and out of bit 3
for an addition, a borrow for a subtraction, and for a logical operation Z only. -/
def aluPsw (op : AluOp) (p d s : Byte) (c : Bool) : Byte :=
  let z := aluResult op d s c == 0
  match op with
  | .add => pswFlags p z (16 ≤ d.toNat % 16 + s.toNat % 16) (256 ≤ d.toNat + s.toNat)
  | .addc => pswFlags p z (16 ≤ d.toNat % 16 + s.toNat % 16 + c.toNat) (256 ≤ d.toNat + s.toNat + c.toNat)
  | .sub | .cmp => pswFlags p z (d.toNat % 16 < s.toNat % 16) (d.toNat < s.toNat)
  | .subc => pswFlags p z (d.toNat % 16 < s.toNat % 16 + c.toNat) (d.toNat < s.toNat + c.toNat)
  | .and | .or | .xor => pswFlags p z (bitOf p 4) (bitOf p 0)

/-- The stores of a destination: none for CMP (42_operation_8 R198). -/
def unlessCmp (op : AluOp) (ws : List (Addr × Byte)) : List (Addr × Byte) := if op = .cmp then [] else ws

/-- The number that two decimal digits in a byte stand for (45_rotate_bcd R258). -/
def bcd (v : Byte) : Nat := 10 * (v.toNat / 16) + v.toNat % 16

/-- Both digits are decimal (45_rotate_bcd R258). -/
def IsBcd (v : Byte) : Prop := v.toNat / 16 ≤ 9 ∧ v.toNat % 16 ≤ 9

/-- The instruction answers a next state, which differs from `base` in PC, `hold` and the bytes stored only; `base` is
`s`, with the hidden state the instruction changes. -/
def Completes (i : Instr) (s base : State) (pc : Addr) (hold : Bool) (ws : List (Addr × Byte)) : Prop :=
  ∃ t, exec i s = .next t ∧ Effect base t pc hold ws

/-- The instruction answers a next state: PC after it, no hold, the bytes stored, and nothing else different from
`base`. -/
def RunsTo (i : Instr) (s base : State) (ws : List (Addr × Byte)) : Prop := Completes i s base (after i s) false ws

/-- The instruction answers a next state: PC after it, no hold, the bytes stored, and nothing else changed. -/
def Runs (i : Instr) (s : State) (ws : List (Addr × Byte)) : Prop := RunsTo i s s ws

/-- `n` bytes can be pushed: their addresses lie in the internal high-speed RAM (20_memory R88). -/
def StackRoom (s : State) (n : Nat) : Prop := ∀ k < n, inIhram s.cfg (s.sp - BitVec.ofNat 16 (k + 1)) = true

/-- `n` bytes can be popped: their addresses lie in the internal high-speed RAM (20_memory R88). -/
def StackHas (s : State) (n : Nat) : Prop := ∀ k < n, inIhram s.cfg (s.sp + BitVec.ofNat 16 k) = true

/-- The acknowledgement condition (60_exceptions R412). -/
def CanAcknowledge (s : State) (src : IntSource) : Prop :=
  s.hold = false ∧ s.nmis = false ∧ requested s src = true ∧
    match src.kind with
    | .nonMaskable => True
    | .maskable _ mask priority =>
      bitOf s.psw 7 = true ∧ flagAt s mask = false ∧ (bitOf s.psw 1 = true ∨ flagAt s priority = false)

/-- A byte is of one of the patterns, each a mask and the bits it leaves (30_encoding R125). -/
def hasPattern (mask : Byte) (patterns : List Byte) (b : Byte) : Bool := patterns.contains (b &&& mask)

/-- The first bytes of no instruction (30_encoding R125). -/
def undefinedFirst (b : Byte) : Bool := [0x06, 0x15, 0x17, 0xC0, 0xD0, 0xE0].contains b

/-- The defined second bytes after 31H (30_encoding R125; 31_prefix_maps R116). -/
def definedAfter31 (b : Byte) : Bool :=
  hasPattern 0x8F [0x01, 0x03, 0x05, 0x06, 0x07, 0x0D, 0x0E, 0x0F, 0x0A, 0x0B, 0x85, 0x86, 0x87] b ||
    [0x80, 0x82, 0x88, 0x8A, 0x8B, 0x90, 0x98].contains b

/-- The defined second bytes after 61H (30_encoding R125; 31_prefix_maps R117). -/
def definedAfter61 (b : Byte) : Bool :=
  hasPattern 0x88 [0x00] b || (hasPattern 0x88 [0x08] b && b &&& 0x07 != 0x01) ||
    hasPattern 0x8F [0x89, 0x8A, 0x8B, 0x8C, 0x8D, 0x8E, 0x8F] b ||
    [0x80, 0x90, 0xD0, 0xD8, 0xF0, 0xF8].contains b

/-- The defined second bytes after 71H (30_encoding R125; 31_prefix_maps R118). -/
def definedAfter71 (b : Byte) : Bool :=
  hasPattern 0x8F [0x01, 0x04, 0x05, 0x06, 0x07, 0x09, 0x0A, 0x0B, 0x0C, 0x0D, 0x0E, 0x0F, 0x81, 0x82, 0x83, 0x84,
    0x85, 0x86, 0x87] b || [0x00, 0x10].contains b

/-! Instructions of one shape, by their operand. -/

/-- MOV A,m (40 R142 to R144, R146 to R148). -/
def movLoad : MemOperand → Instr
  | .saddr o => .movASaddr o
  | .sfr o => .movASfr o
  | .abs a => .movAAbs a
  | .de => .movADe
  | .hl => .movAHl
  | .hlByte d => .movAHlByte d
  | .hlB => .movAHlB
  | .hlC => .movAHlC

/-- MOV m,A (40 R142 to R144, R146 to R148). -/
def movStore : MemOperand → Instr
  | .saddr o => .movSaddrA o
  | .sfr o => .movSfrA o
  | .abs a => .movAbsA a
  | .de => .movDeA
  | .hl => .movHlA
  | .hlByte d => .movHlByteA d
  | .hlB => .movHlBA
  | .hlC => .movHlCA

/-- XCH A,m (40 R150). -/
def xchMemory : MemOperand → Instr
  | .saddr o => .xchASaddr o
  | .sfr o => .xchASfr o
  | .abs a => .xchAAbs a
  | .de => .xchADe
  | .hl => .xchAHl
  | .hlByte d => .xchAHlByte d
  | .hlB => .xchAHlB
  | .hlC => .xchAHlC

/-- MOVW AX,m (41 R172 to R174); the other operands have no such form. -/
def movwLoad : MemOperand → Option Instr
  | .saddr o => some (.movwAxSaddrp o)
  | .sfr o => some (.movwAxSfrp o)
  | .abs a => some (.movwAxAbs a)
  | _ => none

/-- MOVW m,AX (41 R172 to R174). -/
def movwStoreAx : MemOperand → Option Instr
  | .saddr o => some (.movwSaddrpAx o)
  | .sfr o => some (.movwSfrpAx o)
  | .abs a => some (.movwAbsAx a)
  | _ => none

/-- MOVW m,#word (41 R172, R173). -/
def movwStoreWord (w : Word) : MemOperand → Option Instr
  | .saddr o => some (.movwSaddrpWord o w)
  | .sfr o => some (.movwSfrpWord o w)
  | _ => none

/-- MOV m,#byte (40 R142, R143). -/
def movStoreImm (d : Byte) : MemOperand → Option Instr
  | .saddr o => some (.movSaddrImm o d)
  | .sfr o => some (.movSfrImm o d)
  | _ => none

/-- op A,#byte (42 R190). -/
def aluImmediate (op : AluOp) (d : Byte) : Instr :=
  match op with
  | .add => .addAImm d
  | .addc => .addcAImm d
  | .sub => .subAImm d
  | .subc => .subcAImm d
  | .and => .andAImm d
  | .or => .orAImm d
  | .xor => .xorAImm d
  | .cmp => .cmpAImm d

/-- op A,r (42 R190). -/
def aluAWithReg (op : AluOp) (r : Reg8) : Instr :=
  match op with
  | .add => .addAR r
  | .addc => .addcAR r
  | .sub => .subAR r
  | .subc => .subcAR r
  | .and => .andAR r
  | .or => .orAR r
  | .xor => .xorAR r
  | .cmp => .cmpAR r

/-- op r,A (42 R190). -/
def aluRegWithA (op : AluOp) (r : Reg8) : Instr :=
  match op with
  | .add => .addRA r
  | .addc => .addcRA r
  | .sub => .subRA r
  | .subc => .subcRA r
  | .and => .andRA r
  | .or => .orRA r
  | .xor => .xorRA r
  | .cmp => .cmpRA r

/-- op saddr,#byte (42 R190). -/
def aluSaddr (op : AluOp) (o d : Byte) : Instr :=
  match op with
  | .add => .addSaddrImm o d
  | .addc => .addcSaddrImm o d
  | .sub => .subSaddrImm o d
  | .subc => .subcSaddrImm o d
  | .and => .andSaddrImm o d
  | .or => .orSaddrImm o d
  | .xor => .xorSaddrImm o d
  | .cmp => .cmpSaddrImm o d

/-- op A,m with one constructor per operand form. -/
def aluForm (saddr : Byte → Instr) (abs : Addr → Instr) (hl : Instr) (hlByte : Byte → Instr) (hlB hlC : Instr) :
    MemOperand → Option Instr
  | .saddr o => some (saddr o)
  | .abs a => some (abs a)
  | .hl => some hl
  | .hlByte d => some (hlByte d)
  | .hlB => some hlB
  | .hlC => some hlC
  | _ => none

/-- op A,m (42 R190); sfr and [DE] have no such form. -/
def aluMemory : AluOp → MemOperand → Option Instr
  | .add => aluForm .addASaddr .addAAbs .addAHl .addAHlByte .addAHlB .addAHlC
  | .addc => aluForm .addcASaddr .addcAAbs .addcAHl .addcAHlByte .addcAHlB .addcAHlC
  | .sub => aluForm .subASaddr .subAAbs .subAHl .subAHlByte .subAHlB .subAHlC
  | .subc => aluForm .subcASaddr .subcAAbs .subcAHl .subcAHlByte .subcAHlB .subcAHlC
  | .and => aluForm .andASaddr .andAAbs .andAHl .andAHlByte .andAHlB .andAHlC
  | .or => aluForm .orASaddr .orAAbs .orAHl .orAHlByte .orAHlB .orAHlC
  | .xor => aluForm .xorASaddr .xorAAbs .xorAHl .xorAHlByte .xorAHlB .xorAHlC
  | .cmp => aluForm .cmpASaddr .cmpAAbs .cmpAHl .cmpAHlByte .cmpAHlB .cmpAHlC

/-- The five bit operands of 46 R270, with one constructor each. -/
inductive BitPlace where
  | saddr (o : Byte)
  | sfr (o : Byte)
  | a
  | psw
  | hl
  deriving DecidableEq, Repr

/-- The address of the byte that holds the bit (46 R270). -/
def BitPlace.addr (s : State) : BitPlace → Addr
  | .saddr o => effAddr s (.saddr o)
  | .sfr o => effAddr s (.sfr o)
  | .a => regAddr (bank s) .a
  | .psw => pswAddr
  | .hl => effAddr s .hl

/-- The encoding may name the operand (20_memory R83). -/
def BitPlace.Named : BitPlace → Prop
  | .sfr o => ¬(0xD0 ≤ o.toNat ∧ o.toNat ≤ 0xDF)
  | _ => True

/-- The instruction of a row with the five bit operands. -/
def BitPlace.form (saddr sfr : Byte → BitVec 3 → Instr) (a psw hl : BitVec 3 → Instr) (n : BitVec 3) :
    BitPlace → Instr
  | .saddr o => saddr o n
  | .sfr o => sfr o n
  | .a => a n
  | .psw => psw n
  | .hl => hl n

/-- The four operations on CY and a bit (46 R271, R274 to R276). -/
inductive BitOp where
  | mov1 | and1 | or1 | xor1
  deriving DecidableEq, Repr

/-- The new CY (46 R271, R274 to R276). -/
def BitOp.value (c v : Bool) : BitOp → Bool
  | .mov1 => v
  | .and1 => c && v
  | .or1 => c || v
  | .xor1 => c != v

/-- MOV1, AND1, OR1, XOR1 CY,x.bit. -/
def bitIntoCy : BitOp → BitVec 3 → BitPlace → Instr
  | .mov1 => BitPlace.form .mov1CySaddrBit .mov1CySfrBit .mov1CyABit .mov1CyPswBit .mov1CyHlBit
  | .and1 => BitPlace.form .and1CySaddrBit .and1CySfrBit .and1CyABit .and1CyPswBit .and1CyHlBit
  | .or1 => BitPlace.form .or1CySaddrBit .or1CySfrBit .or1CyABit .or1CyPswBit .or1CyHlBit
  | .xor1 => BitPlace.form .xor1CySaddrBit .xor1CySfrBit .xor1CyABit .xor1CyPswBit .xor1CyHlBit

/-- MOV1 x.bit,CY. -/
def cyIntoBit : BitVec 3 → BitPlace → Instr :=
  BitPlace.form .mov1SaddrBitCy .mov1SfrBitCy .mov1ABitCy .mov1PswBitCy .mov1HlBitCy

/-- SET1 and CLR1 x.bit. -/
def constantIntoBit : Bool → BitVec 3 → BitPlace → Instr
  | true => BitPlace.form .set1SaddrBit .set1SfrBit .set1ABit .set1PswBit .set1HlBit
  | false => BitPlace.form .clr1SaddrBit .clr1SfrBit .clr1ABit .clr1PswBit .clr1HlBit

/-- BT and BF x.bit,$addr16. -/
def branchIfBit (v : Bool) (j : Byte) : BitVec 3 → BitPlace → Instr :=
  if v then BitPlace.form (.btSaddrBit · · j) (.btSfrBit · · j) (.btABit · j) (.btPswBit · j) (.btHlBit · j)
  else BitPlace.form (.bfSaddrBit · · j) (.bfSfrBit · · j) (.bfABit · j) (.bfPswBit · j) (.bfHlBit · j)

/-- BTCLR x.bit,$addr16. -/
def branchAndClearBit (j : Byte) : BitVec 3 → BitPlace → Instr :=
  BitPlace.form (.btclrSaddrBit · · j) (.btclrSfrBit · · j) (.btclrABit · j) (.btclrPswBit · j) (.btclrHlBit · j)

/-- Bit `n` of `v` set to `b`, the other seven bits kept (20_memory R89). -/
def replaceBit (v : Byte) (n : BitVec 3) (b : Bool) : Byte :=
  if b then v ||| (1#8 <<< n.toNat) else v &&& ~~~(1#8 <<< n.toNat)

/-- RelTarget (48_branch R330), modulo 65536 by decision (92 D3; log 9). -/
def target (i : Instr) (s : State) (j : Byte) : Addr := after i s + j.signExtend 16

/-- The seven instructions after which interrupts are held (60_exceptions R415). -/
def inHoldSet : Instr → Bool
  | .movPswImm _ => true
  | .movPswA => true
  | .popPsw => true
  | .reti => true
  | .retb => true
  | .ei => true
  | .di => true
  | _ => false

/-- The instructions that set PC themselves (10_state R28). -/
def setsPc : Instr → Bool
  | .call _ | .callf _ | .callt _ | .brk | .ret | .retb | .reti | .brAbs _ | .brRel _ | .brAx | .bc _ | .bnc _
  | .bz _ | .bnz _ | .btSaddrBit .. | .btSfrBit .. | .btABit .. | .btPswBit .. | .btHlBit .. | .bfSaddrBit ..
  | .bfSfrBit .. | .bfABit .. | .bfPswBit .. | .bfHlBit .. | .btclrSaddrBit .. | .btclrSfrBit .. | .btclrABit ..
  | .btclrPswBit .. | .btclrHlBit .. | .dbnzB _ | .dbnzC _ | .dbnzSaddr .. => true
  | _ => false

end Sys2Proof.Machine
end

