-- ==== Sys2Proof/Certificates/Slice0/Obligations.lean ====
section
/-! DEFINITION. The claims about the machine, from the numbered rules of spec/. A claim about an instruction says that
`exec` answers a next state, and, by `Effect` (Sys2Proof/Safety.lean), what PC, `hold` and every byte of the address
space (registers, PSW and SP among them) are in it, and that nothing else changed. -/

open Sys2Proof Sys2Proof.Machine

/-! Encoding. -/

/-- Decoding the encoding of an instruction, with any bytes after it, gives the instruction and those bytes. -/
def Obligations.DecodeEncode : Prop :=
  ∀ (i : Instr) (rest : List Byte), i.wf = true → decode (encode i ++ rest) = .ok (i, rest)

/-- Bytes that decode are the encoding of the instruction, which is well formed, and the bytes after it. -/
def Obligations.EncodeDecode : Prop :=
  ∀ (bytes : List Byte) (i : Instr) (rest : List Byte),
    decode bytes = .ok (i, rest) → i.wf = true ∧ bytes = encode i ++ rest

/-- Words written out from the code list (30_encoding R110) decode to the instructions they stand for. -/
def Obligations.DecodesWrittenWords : Prop :=
  decode [0b10100101, 0x12] = .ok (.movRImm .d 0x12, []) ∧
  decode [0b00010010, 0x34, 0x12] = .ok (.movwRpWord .bc 0x1234, []) ∧
  decode [0b01100001, 0b00011010] = .ok (.subAR .c, []) ∧
  decode [0b01110001, 0b01101100, 0x03] = .ok (.mov1CySfrBit 0x03 6, []) ∧
  decode [0b00110001, 0b01010001, 0x1E, 0xFD] = .ok (.btclrPswBit 5 0xFD, []) ∧
  decode [0b01001100, 0x2A] = .ok (.callf 0x42A, []) ∧
  decode [0b11000011] = .ok (.callt 1, []) ∧
  decode [0b10110101] = .ok (.pushRp .de, []) ∧
  decode [0b01111010, 0x1E] = .ok (.ei, []) ∧
  decode [0b01100001, 0b11110000] = .ok (.sel 2, [])

/-- The codes of 30_encoding R125, and no others, are refused as undefined, with the bytes that identify them. That they
are refused is the spec's own decision (92 D6; log 16). -/
def Obligations.UndefinedCodesAreRefused : Prop :=
  ∀ (b : Byte) (rest : List Byte),
    (decode (b :: rest) = .error (.undefined [b]) ↔ undefinedFirst b = true) ∧
    (decode (0x31 :: b :: rest) = .error (.undefined [0x31, b]) ↔ definedAfter31 b = false) ∧
    (decode (0x61 :: b :: rest) = .error (.undefined [0x61, b]) ↔ definedAfter61 b = false) ∧
    (decode (0x71 :: b :: rest) = .error (.undefined [0x71, b]) ↔ definedAfter71 b = false)

/-- A named row that is a general row with offset 1EH or 1CH has the general row's bytes (30_encoding R106, R127) and its
effect. That the effects agree rests on PSW and SP being mapped for every access (10_state R31, R38; 92 D1; log 8), on PSW
bit 2 being 0 (92 D2; log 7), and on the meaning that the model gives the general term with offset 1EH or 1CH, which is
never decoded (log 34). -/
def Obligations.NamedRowsAgreeWithGeneralRows : Prop :=
  ∀ (s : State) (n : BitVec 3) (d j : Byte) (w : Word), bitOf s.psw 2 = false →
    ∀ p ∈ [(Instr.movPswImm d, Instr.movSaddrImm 0x1E d), (.movAPsw, .movASaddr 0x1E), (.movPswA, .movSaddrA 0x1E),
      (.mov1CyPswBit n, .mov1CySaddrBit 0x1E n), (.mov1PswBitCy n, .mov1SaddrBitCy 0x1E n),
      (.and1CyPswBit n, .and1CySaddrBit 0x1E n), (.or1CyPswBit n, .or1CySaddrBit 0x1E n),
      (.xor1CyPswBit n, .xor1CySaddrBit 0x1E n), (.set1PswBit n, .set1SaddrBit 0x1E n),
      (.clr1PswBit n, .clr1SaddrBit 0x1E n), (.ei, .set1PswBit 7), (.di, .clr1PswBit 7),
      (.btPswBit n j, .btSaddrBit 0x1E n j), (.bfPswBit n j, .bfSaddrBit 0x1E n j),
      (.btclrPswBit n j, .btclrSaddrBit 0x1E n j), (.movwSpWord w, .movwSaddrpWord 0x1C w),
      (.movwSpAx, .movwSaddrpAx 0x1C), (.movwAxSp, .movwAxSaddrp 0x1C)],
    encode p.1 = encode p.2 ∧ exec p.1 s = exec p.2 s

/-! Memory, registers and operands. -/

/-- A store writes its byte and nothing else; PSW and SP are read at their addresses. A read or write of a device SFR is
an opaque call, which the device sees; of any other byte it is plain storage. The spec's own decisions: PSW bit 2 stays 0
(92 D2; log 7), and PSW and SP are mapped for every access (92 D1; log 8). That an SFR is a device or plain storage, and
that a device's register holds the byte last written, are the model's choice (log 13). -/
def Obligations.BytesAreStoredAndRead : Prop :=
  ∀ (s : State) (u : AccessUnit) (a : Addr) (v : Byte),
    byteAt s 0xFF1E = s.psw ∧ byteAt s 0xFF1D ++ byteAt s 0xFF1C = s.sp ∧
    (Readable s u a → load8 s u a = .ok (valueAt s a, noteRead s a)) ∧
    (Writable s u a → ∃ t, store8 s u a v = .ok t ∧ Effect (noteWrite s a v) t s.pc s.hold [(a, stored a v)]) ∧
    (isDevice s.cfg a = true ↔
      (0xFF00 ≤ a.toNat ∧ a ≠ 0xFF1C ∧ a ≠ 0xFF1D ∧ a ≠ 0xFF1E ∧
        ∃ f, sfrAt s.cfg a = some f ∧ f.behaviour = .device)) ∧
    (isDevice s.cfg a = true →
      valueAt s a = Config.sfrRead s.sfrLog a ∧ noteRead s a = { s with sfrLog := .read a :: s.sfrLog } ∧
        noteWrite s a v = { s with sfrLog := .write a v :: s.sfrLog }) ∧
    (isDevice s.cfg a = false → valueAt s a = byteAt s a ∧ noteRead s a = s ∧ noteWrite s a v = s)

/-- A word has its low byte at the lower address, and that byte is accessed first (20_memory R75). The store keeps PSW bit
2 at 0 (92 D2; log 7) and reaches PSW and SP (92 D1; log 8), and the order is the spec's decision (92 D15; log 26). -/
def Obligations.WordsAreLittleEndian : Prop :=
  ∀ (s : State) (a : Addr) (v : Word),
    (Readable s .word a → Readable s .word (a + 1) → load16 s a = .ok (wordValueAt s a, noteReadWord s a)) ∧
    (isDevice s.cfg a = false → isDevice s.cfg (a + 1) = false →
      wordValueAt s a = byteAt s (a + 1) ++ byteAt s a ∧ noteReadWord s a = s ∧ noteWriteWord s a v = s) ∧
    (Writable s .word a → Writable s .word (a + 1) →
      ∃ t, store16 s a v = .ok t ∧
        Effect (noteWriteWord s a v) t s.pc s.hold
          [(a, stored a (v.extractLsb' 0 8)), (a + 1, stored (a + 1) (v.extractLsb' 8 8))])

/-- Register i of bank b is the byte at FEF8H - 8b + i, a byte of its own, always readable and writable; a pair is two
registers, the even one low (10_state R21, R23). -/
def Obligations.RegistersAreMemory : Prop :=
  ∀ (s : State) (b : BitVec 2) (r : Reg8) (p : RegPair) (v : Byte) (w : Word),
    (regAddr b r).toNat = 0xFEF8 - 8 * b.toNat + r.code.toNat ∧
    reg s b r = byteAt s (regAddr b r) ∧
    (∀ b' r', regAddr b r = regAddr b' r' → b = b' ∧ r = r') ∧
    (∀ u, Readable s u (regAddr b r) ∧ Writable s u (regAddr b r)) ∧
    p.lowReg.code = 2 * p.code.setWidth 3 ∧ p.highReg.code = 2 * p.code.setWidth 3 + 1 ∧
    pair s b p = reg s b p.highReg ++ reg s b p.lowReg ∧
    Effect s (setReg s b r v) s.pc s.hold [(regAddr b r, v)] ∧
    Effect s (setPair s b p w) s.pc s.hold (pairBytes b p w)

/-- The effective address of every operand form (20_memory R82 to R87), with the registers of the selected bank. -/
def Obligations.EffectiveAddresses : Prop :=
  ∀ (s : State) (o : Byte) (a : Addr),
    (0x20 ≤ o.toNat → (effAddr s (.saddr o)).toNat = 0xFE00 + o.toNat) ∧
    (o.toNat < 0x20 → (effAddr s (.saddr o)).toNat = 0xFF00 + o.toNat) ∧
    (effAddr s (.sfr o)).toNat = 0xFF00 + o.toNat ∧
    effAddr s (.abs a) = a ∧
    effAddr s .de = pair s (bank s) .de ∧
    effAddr s .hl = pair s (bank s) .hl ∧
    (effAddr s (.hlByte o)).toNat = ((pair s (bank s) .hl).toNat + o.toNat) % 65536 ∧
    (effAddr s .hlB).toNat = ((pair s (bank s) .hl).toNat + (reg s (bank s) .b).toNat) % 65536 ∧
    (effAddr s .hlC).toNat = ((pair s (bank s) .hl).toNat + (reg s (bank s) .c).toNat) % 65536 ∧
    (bank s).toNat = 2 * (s.psw.getLsbD 5).toNat + (s.psw.getLsbD 3).toNat

/-- Which bytes can be read and written, in which unit: PSW and SP, the internal high-speed RAM, and what `SfrMap` and
`MemMap` allow (20_memory R69, R72, R73, R79); and which can be fetched: none of the SFR area, and elsewhere what `MemMap`
makes executable (20_memory R74). PSW and SP are reached by every unit by decision (92 D1; log 8). -/
def Obligations.AccessibleExactly : Prop :=
  ∀ (s : State) (u : AccessUnit) (a : Addr),
    (Readable s u a ↔ a = 0xFF1C ∨ a = 0xFF1D ∨ a = 0xFF1E ∨
      (0xFF00 ≤ a.toNat ∧ ∃ f, sfrAt s.cfg a = some f ∧ f.readable = true ∧ sfrAllows f u = true) ∨
      (a.toNat < 0xFF00 ∧ (inIhram s.cfg a = true ∨ ∃ r, regionAt s.cfg a = some r ∧ r.readable = true))) ∧
    (Writable s u a ↔ a = 0xFF1C ∨ a = 0xFF1D ∨ a = 0xFF1E ∨
      (0xFF00 ≤ a.toNat ∧ ∃ f, sfrAt s.cfg a = some f ∧ f.writable = true ∧ sfrAllows f u = true) ∨
      (a.toNat < 0xFF00 ∧ (inIhram s.cfg a = true ∨ ∃ r, regionAt s.cfg a = some r ∧ r.writable = true))) ∧
    (fetchFault s a = none ↔ a.toNat < 0xFF00 ∧
      (if inIhram s.cfg a = true then ∃ r ∈ s.cfg.ihramExecutable, r.lo ≤ a.toNat ∧ a.toNat ≤ r.hi
        else ∃ r, regionAt s.cfg a = some r ∧ r.executable = true))

/-! Data transfer. -/

/-- MOV with register operands (40 R141). The terms `MOV A,A` of `MOV A,r` and `MOV r,A` do not exist as instructions (30
R107): they have no encoding and are never decoded, and what the model does with them is its choice (log 34). -/
def Obligations.MovRegisterForms : Prop :=
  ∀ (s : State) (r : Reg8) (d : Byte),
    Runs (.movRImm r d) s [(regAddr (bank s) r, d)] ∧
    Runs (.movAR r) s [(regAddr (bank s) .a, reg s (bank s) r)] ∧
    Runs (.movRA r) s [(regAddr (bank s) r, reg s (bank s) .a)]

/-- MOV with PSW (40 R145): the two forms that write PSW hold interrupts, and bit 2 stays 0, by decision (92 D2; log
7). -/
def Obligations.MovPswForms : Prop :=
  ∀ (s : State) (d : Byte),
    Completes (.movPswImm d) s s (after (.movPswImm d) s) true [(pswAddr, d &&& 0xFB)] ∧
    Runs .movAPsw s [(regAddr (bank s) .a, s.psw)] ∧
    Completes .movPswA s s (after .movPswA s) true [(pswAddr, reg s (bank s) .a &&& 0xFB)]

/-- MOV between A, or immediate data, and memory, in every memory operand form (40 R142 to R144, R146 to R149); offset
1EH of the saddr forms is MOV PSW and holds interrupts. Other stores that reach PSW do not hold, by decision (92 D17;
log 25). A device SFR is read and written by opaque calls (20_memory R79; log 13). -/
def Obligations.MovMemoryForms : Prop :=
  ∀ (s : State) (m : MemOperand) (o d : Byte),
    (Named m → Readable s .byte (effAddr s m) →
      RunsTo (movLoad m) s (noteRead s (effAddr s m)) [(regAddr (bank s) .a, valueAt s (effAddr s m))]) ∧
    (Named m → Writable s .byte (effAddr s m) →
      Completes (movStore m) s (noteWrite s (effAddr s m) (reg s (bank s) .a)) (after (movStore m) s) (m == .saddr 0x1E)
        [(effAddr s m, stored (effAddr s m) (reg s (bank s) .a))]) ∧
    (Writable s .byte (effAddr s (.saddr o)) →
      Completes (.movSaddrImm o d) s (noteWrite s (effAddr s (.saddr o)) d) (after (.movSaddrImm o d) s) (o == 0x1E)
        [(effAddr s (.saddr o), stored (effAddr s (.saddr o)) d)]) ∧
    (Named (.sfr o) → Writable s .byte (effAddr s (.sfr o)) →
      RunsTo (.movSfrImm o d) s (noteWrite s (effAddr s (.sfr o)) d) [(effAddr s (.sfr o), stored (effAddr s (.sfr o)) d)])

/-- XCH (40 R150): memory receives the old A, then A the old byte; the order is the spec's decision (92 D15; log 26).
The term `XCH A,A` has no encoding (log 34). A device SFR is read and written by opaque calls (20_memory R79; log 13).
-/
def Obligations.XchForms : Prop :=
  ∀ (s : State) (r : Reg8) (m : MemOperand),
    Runs (.xchAR r) s [(regAddr (bank s) .a, reg s (bank s) r), (regAddr (bank s) r, reg s (bank s) .a)] ∧
    (Named m → Readable s .byte (effAddr s m) → Writable s .byte (effAddr s m) →
      RunsTo (xchMemory m) s (noteUpdate s (effAddr s m) (reg s (bank s) .a))
        [(effAddr s m, stored (effAddr s m) (reg s (bank s) .a)),
          (regAddr (bank s) .a, valueAt s (effAddr s m))])

/-- MOVW and XCHW with register pairs (41 R171, R176). The terms `MOVW AX,AX` and `XCHW AX,AX` do not exist as
instructions (30 R107): they have no encoding and are never decoded, and what the model does with them is its choice (log
34). -/
def Obligations.MovwRegisterForms : Prop :=
  ∀ (s : State) (p : RegPair) (w : Word),
    Runs (.movwRpWord p w) s (pairBytes (bank s) p w) ∧
    Runs (.movwAxRp p) s (pairBytes (bank s) .ax (pair s (bank s) p)) ∧
    Runs (.movwRpAx p) s (pairBytes (bank s) p (pair s (bank s) .ax)) ∧
    Runs (.xchwAxRp p) s
      (pairBytes (bank s) .ax (pair s (bank s) p) ++ pairBytes (bank s) p (pair s (bank s) .ax))

/-- MOVW between AX, or immediate data, and a word of memory at an even address (41 R170, R172 to R174). The low byte
is accessed first, by decision (92 D15; log 26). A device SFR is read and written by opaque calls (20_memory R79; log
13). -/
def Obligations.MovwMemoryForms : Prop :=
  ∀ (s : State) (m : MemOperand) (i : Instr) (w : Word),
    (movwLoad m = some i → Named m → ReadableWord s (effAddr s m) →
      RunsTo i s (noteReadWord s (effAddr s m)) (pairBytes (bank s) .ax (wordValueAt s (effAddr s m)))) ∧
    (movwStoreAx m = some i → Named m → WritableWord s (effAddr s m) →
      RunsTo i s (noteWriteWord s (effAddr s m) (pair s (bank s) .ax))
        [(effAddr s m, stored (effAddr s m) (reg s (bank s) .x)),
          (effAddr s m + 1, stored (effAddr s m + 1) (reg s (bank s) .a))]) ∧
    (movwStoreWord w m = some i → Named m → WritableWord s (effAddr s m) →
      RunsTo i s (noteWriteWord s (effAddr s m) w) [(effAddr s m, stored (effAddr s m) (loByte w)),
        (effAddr s m + 1, stored (effAddr s m + 1) (hiByte w))])

/-! Arithmetic and logic. -/

/-- The eight 8-bit operations in their ten operand forms (42 R190 to R199): the result goes to the destination, but
for CMP; then the flags go to PSW, on top of the result where the destination is PSW, by decision (92 D1; log 8). The
terms `op A,r` with r = A have no encoding (log 34). A device SFR is read and written by opaque calls (20_memory R79;
log 13). -/
def Obligations.EightBitOperations : Prop :=
  ∀ (s : State) (op : AluOp) (r : Reg8) (m : MemOperand) (i : Instr) (o d : Byte),
    let c := bitOf s.psw 0
    let a := reg s (bank s) .a
    let ea := effAddr s (.saddr o)
    Runs (aluImmediate op d) s
      (unlessCmp op [(regAddr (bank s) .a, aluResult op a d c)] ++ [(pswAddr, aluPsw op s.psw a d c)]) ∧
    Runs (aluAWithReg op r) s
      (unlessCmp op [(regAddr (bank s) .a, aluResult op a (reg s (bank s) r) c)] ++
        [(pswAddr, aluPsw op s.psw a (reg s (bank s) r) c)]) ∧
    Runs (aluRegWithA op r) s
      (unlessCmp op [(regAddr (bank s) r, aluResult op (reg s (bank s) r) a c)] ++
        [(pswAddr, aluPsw op s.psw (reg s (bank s) r) a c)]) ∧
    (aluMemory op m = some i → Readable s .byte (effAddr s m) →
      RunsTo i s (noteRead s (effAddr s m))
        (unlessCmp op [(regAddr (bank s) .a, aluResult op a (valueAt s (effAddr s m)) c)] ++
          [(pswAddr, aluPsw op s.psw a (valueAt s (effAddr s m)) c)])) ∧
    (Readable s .byte ea → (op = .cmp ∨ Writable s .byte ea) →
      let r := aluResult op (valueAt s ea) d c
      RunsTo (aluSaddr op o d) s (if op = .cmp then noteRead s ea else noteUpdate s ea r)
        (unlessCmp op [(ea, stored ea r)] ++
          [(pswAddr, aluPsw op (if op = .cmp then s.psw else pswAfterStore s ea r) (valueAt s ea) d c)]))

/-- The flags of the model's 8-bit operations are those of a binary adder: CY is bit 8 of the 9-bit sum or difference,
AC the carry or borrow into bit 4, Z a zero result; the logical operations leave AC and CY alone (42 R199). -/
def Obligations.FlagsAreCarriesOfTheAdder : Prop :=
  ∀ (op : AluOp) (d s : Byte) (c : Bool),
    let cin : BitVec 9 := if op = .addc ∨ op = .subc then (BitVec.ofBool c).setWidth 9 else 0
    let e := aluEval op d s c
    e.2.z = some (e.1 == 0) ∧
    (op = .add ∨ op = .addc →
      e.1 = (d.setWidth 9 + s.setWidth 9 + cin).setWidth 8 ∧
      e.2.cy = some ((d.setWidth 9 + s.setWidth 9 + cin).getLsbD 8) ∧
      e.2.ac = some ((d ^^^ s ^^^ e.1).getLsbD 4)) ∧
    (op = .sub ∨ op = .subc ∨ op = .cmp →
      e.1 = (d.setWidth 9 - s.setWidth 9 - cin).setWidth 8 ∧
      e.2.cy = some ((d.setWidth 9 - s.setWidth 9 - cin).getLsbD 8) ∧
      e.2.ac = some ((d ^^^ s ^^^ e.1).getLsbD 4)) ∧
    (op = .and ∨ op = .or ∨ op = .xor → e.2.ac = none ∧ e.2.cy = none)

/-- ADDW, SUBW, CMPW (43 R220 to R223); the new AC is the value the spec leaves undefined, whatever it is. The counter
`freeCount` that draws it is the model's own (log 17). -/
def Obligations.WordOperations : Prop :=
  ∀ (s : State) (w : Word),
    let x := pair s (bank s) .ax
    let u := Config.acUndef s.freeCount
    let base := { s with freeCount := s.freeCount + 1 }
    Completes (.addwAxWord w) s base (after (.addwAxWord w) s) false
      (pairBytes (bank s) .ax (x + w) ++
        [(pswAddr, pswFlags s.psw (x + w == 0) u (65536 ≤ x.toNat + w.toNat))]) ∧
    Completes (.subwAxWord w) s base (after (.subwAxWord w) s) false
      (pairBytes (bank s) .ax (x - w) ++ [(pswAddr, pswFlags s.psw (x == w) u (x.toNat < w.toNat))]) ∧
    Completes (.cmpwAxWord w) s base (after (.cmpwAxWord w) s) false
      [(pswAddr, pswFlags s.psw (x == w) u (x.toNat < w.toNat))]

/-- MULU and DIVUW (44 R230, R231), division by zero included. -/
def Obligations.MultiplyAndDivide : Prop :=
  ∀ s : State,
    let b := bank s
    let x := pair s b .ax
    let c := reg s b .c
    Runs .mulu s (pairBytes b .ax ((reg s b .a).setWidth 16 * (reg s b .x).setWidth 16)) ∧
    (c ≠ 0 → Runs .divuw s
      (pairBytes b .ax (x / c.setWidth 16) ++ [(regAddr b .c, (x % c.setWidth 16).setWidth 8)])) ∧
    (c = 0 → Runs .divuw s (pairBytes b .ax 0xFFFF ++ [(regAddr b .c, reg s b .x)]))

/-- INC and DEC (44 R235, R236): Z and AC from the result, CY kept; on top of the result where the byte is PSW, by
decision (92 D1; log 8). A device SFR is read and written by opaque calls (20_memory R79; log 13). -/
def Obligations.IncrementAndDecrementBytes : Prop :=
  ∀ (s : State) (r : Reg8) (o : Byte),
    let v := reg s (bank s) r
    let ea := effAddr s (.saddr o)
    let d := valueAt s ea
    let p := pswAfterStore s ea (d + 1)
    let q := pswAfterStore s ea (d - 1)
    Runs (.incR r) s [(regAddr (bank s) r, v + 1),
      (pswAddr, pswFlags s.psw (v == 0xFF) (v.toNat % 16 == 15) (bitOf s.psw 0))] ∧
    Runs (.decR r) s [(regAddr (bank s) r, v - 1),
      (pswAddr, pswFlags s.psw (v == 0x01) (v.toNat % 16 == 0) (bitOf s.psw 0))] ∧
    (Readable s .byte ea → Writable s .byte ea →
      RunsTo (.incSaddr o) s (noteUpdate s ea (d + 1)) [(ea, stored ea (d + 1)),
        (pswAddr, pswFlags p (d == 0xFF) (d.toNat % 16 == 15) (bitOf p 0))] ∧
      RunsTo (.decSaddr o) s (noteUpdate s ea (d - 1)) [(ea, stored ea (d - 1)),
        (pswAddr, pswFlags q (d == 0x01) (d.toNat % 16 == 0) (bitOf q 0))])

/-- INCW and DECW (44 R237, R238): the pair wraps, and no flag changes. -/
def Obligations.IncrementAndDecrementWords : Prop :=
  ∀ (s : State) (p : RegPair),
    Runs (.incwRp p) s (pairBytes (bank s) p (pair s (bank s) p + 1)) ∧
    Runs (.decwRp p) s (pairBytes (bank s) p (pair s (bank s) p - 1))

/-! Rotates and decimal adjustment. -/

/-- ROR, ROL, RORC, ROLC (45 R250 to R253): CY takes the bit shifted out, Z and AC are kept. -/
def Obligations.Rotates : Prop :=
  ∀ s : State,
    let a := reg s (bank s) .a
    let c : Byte := (BitVec.ofBool (bitOf s.psw 0)).setWidth 8
    let psw := fun out => pswFlags s.psw (bitOf s.psw 6) (bitOf s.psw 4) out
    Runs .ror s [(regAddr (bank s) .a, a.rotateRight 1), (pswAddr, psw (a.getLsbD 0))] ∧
    Runs .rol s [(regAddr (bank s) .a, a.rotateLeft 1), (pswAddr, psw (a.getLsbD 7))] ∧
    Runs .rorc s [(regAddr (bank s) .a, (a >>> 1) ||| (c <<< 7)), (pswAddr, psw (a.getLsbD 0))] ∧
    Runs .rolc s [(regAddr (bank s) .a, (a <<< 1) ||| c), (pswAddr, psw (a.getLsbD 7))]

/-- ROR4 and ROL4 (45 R254, R255): three digits in a ring, no flag. HL in the SFR area is a fault (92 D8; log 15), and
(HL) is written before A (92 D15; log 26), by decision. -/
def Obligations.DigitRotates : Prop :=
  ∀ s : State,
    let ea := pair s (bank s) .hl
    let a := reg s (bank s) .a
    let m := byteAt s ea
    (ea.toNat < 0xFF00 → Readable s .byte ea → Writable s .byte ea →
      Runs .ror4 s [(ea, ((a &&& 0x0F) <<< 4) ||| (m >>> 4)),
        (regAddr (bank s) .a, (a &&& 0xF0) ||| (m &&& 0x0F))] ∧
      Runs .rol4 s [(ea, (m <<< 4) ||| (a &&& 0x0F)),
        (regAddr (bank s) .a, (a &&& 0xF0) ||| (m >>> 4))]) ∧
    (0xFF00 ≤ ea.toNat →
      exec .ror4 s = .fault (.rotateSfr s.pc ea) ∧ exec .rol4 s = .fault (.rotateSfr s.pc ea))

/-- ADJBA follows the six rows of its table (45 R258). -/
def Obligations.AdjustAfterAddition : Prop :=
  ∀ s : State,
    let a := reg s (bank s) .a
    let lo := a.toNat % 16
    let hi := a.toNat / 16
    let c := bitOf s.psw 0
    let h := bitOf s.psw 4
    let row := fun (add : Byte) (newCy newAc : Bool) =>
      Runs .adjba s [(regAddr (bank s) .a, a + add), (pswAddr, pswFlags s.psw (a + add == 0) newAc newCy)]
    (lo ≤ 9 ∧ h = false ∧ hi ≤ 9 ∧ c = false → row 0x00 false false) ∧
    (lo ≤ 9 ∧ h = false ∧ (10 ≤ hi ∨ c = true) → row 0x60 true false) ∧
    (10 ≤ lo ∧ h = false ∧ hi < 9 ∧ c = false → row 0x06 false true) ∧
    (10 ≤ lo ∧ h = false ∧ (9 ≤ hi ∨ c = true) → row 0x66 true true) ∧
    (h = true ∧ hi ≤ 9 ∧ c = false → row 0x06 false false) ∧
    (h = true ∧ (10 ≤ hi ∨ c = true) → row 0x66 true false)

/-- ADJBS subtracts 06H for AC and 60H for CY, keeps CY and clears AC (45 R259). -/
def Obligations.AdjustAfterSubtraction : Prop :=
  ∀ s : State,
    let a := reg s (bank s) .a
    let c := bitOf s.psw 0
    let result := a - (if bitOf s.psw 4 then 0x06 else 0x00) - (if c then 0x60 else 0x00)
    Runs .adjbs s [(regAddr (bank s) .a, result), (pswAddr, pswFlags s.psw (result == 0) false c)]

/-- Decimal arithmetic: ADD then ADJBA of two-digit decimal numbers gives the two digits of the sum with CY as the
hundreds, and SUB then ADJBS those of the difference with CY as the borrow (derived from 42 R191, R193; 45 R258,
R259). -/
def Obligations.DecimalArithmeticIsRight : Prop :=
  ∀ (s : State) (d : Byte), IsBcd (reg s (bank s) .a) → IsBcd d →
    let x := bcd (reg s (bank s) .a)
    (∃ t u, exec (.addAImm d) s = .next t ∧ exec .adjba t = .next u ∧
      IsBcd (reg u (bank s) .a) ∧ bcd (reg u (bank s) .a) + 100 * (bitOf u.psw 0).toNat = x + bcd d) ∧
    (∃ t u, exec (.subAImm d) s = .next t ∧ exec .adjbs t = .next u ∧
      IsBcd (reg u (bank s) .a) ∧ bcd (reg u (bank s) .a) + bcd d = x + 100 * (bitOf u.psw 0).toNat)

/-! Bits. -/

/-- MOV1, AND1, OR1, XOR1 into CY (46 R271, R274 to R276): only CY changes. A device SFR is read and written by opaque
calls (20_memory R79; log 13). -/
def Obligations.BitsIntoCarry : Prop :=
  ∀ (s : State) (op : BitOp) (n : BitVec 3) (x : BitPlace), x.Named → Readable s .bit (x.addr s) →
    RunsTo (bitIntoCy op n x) s (noteRead s (x.addr s))
      [(pswAddr, pswFlags s.psw (bitOf s.psw 6) (bitOf s.psw 4)
        (op.value (bitOf s.psw 0) ((valueAt s (x.addr s)).getLsbD n.toNat)))]

/-- MOV1 from CY, SET1 and CLR1 (46 R272, R278, R279): one bit changes; SET1 and CLR1 of PSW.7 by the saddr code are
EI and DI, and hold interrupts. A bit store writes the whole byte back (93 G3; log 29), PSW bit 2 stays 0 (92 D2; log
7), and other stores to PSW do not hold (92 D17; log 25). A device SFR is read and written by opaque calls (20_memory
R79; log 13). -/
def Obligations.BitsWritten : Prop :=
  ∀ (s : State) (n : BitVec 3) (v : Bool) (x : BitPlace), x.Named →
    Readable s .bit (x.addr s) → Writable s .bit (x.addr s) →
    let byte := fun b => replaceBit (valueAt s (x.addr s)) n b
    let write := fun b => [(x.addr s, stored (x.addr s) (byte b))]
    RunsTo (cyIntoBit n x) s (noteUpdate s (x.addr s) (byte (bitOf s.psw 0))) (write (bitOf s.psw 0)) ∧
    Completes (constantIntoBit v n x) s (noteUpdate s (x.addr s) (byte v)) (after (constantIntoBit v n x) s)
      ((x == .psw || x == .saddr 0x1E) && n == 7) (write v)

/-- SET1, CLR1 and NOT1 of CY (46 R280 to R282). -/
def Obligations.CarryOperations : Prop :=
  ∀ s : State,
    Runs .set1Cy s [(pswAddr, s.psw ||| 0x01)] ∧
    Runs .clr1Cy s [(pswAddr, s.psw &&& 0xFE)] ∧
    Runs .not1Cy s [(pswAddr, s.psw ^^^ 0x01)]

/-! Calls, returns and the stack. -/

/-- CALL, CALLF, CALLT (47 R303 to R305). CALLT's target is the word in its table entry, after the two pushes. -/
def Obligations.Calls : Prop :=
  ∀ (s : State) (a : Addr) (f : BitVec 11) (t : BitVec 5), StackRoom s 2 →
    let frame := fun (ret : Addr) =>
      [(s.sp - 1, hiByte ret), (s.sp - 2, loByte ret)] ++ spBytes (s.sp - 2)
    let entry : Addr := 0x0040 + 2 * t.setWidth 16
    Completes (.call a) s s a false (frame (s.pc + 3)) ∧
    Completes (.callf f) s s (0x0800 + f.setWidth 16) false (frame (s.pc + 2)) ∧
    (Readable s .word entry → Readable s .word (entry + 1) →
      ∃ u, exec (.callt t) s = .next u ∧ Effect s u (wordAt u entry) false (frame (s.pc + 1)))

/-- BRK takes the software interrupt (47 R306; 60 R404): PSW, then the return address on the stack, IE cleared, PC from
the vector 003EH; nothing inhibits it. -/
def Obligations.BrkEntersHandler : Prop :=
  ∀ s : State, StackRoom s 3 → Readable s .word 0x003E → Readable s .word 0x003F →
    ∃ t, exec .brk s = .next t ∧
      Effect s t (wordAt t 0x003E) false
        ([(s.sp - 1, s.psw), (s.sp - 2, hiByte (s.pc + 1)), (s.sp - 3, loByte (s.pc + 1)),
          (pswAddr, s.psw &&& 0x7F)] ++ spBytes (s.sp - 3))

/-- RET, RETI and RETB (47 R307 to R309; 60 R416); PSW bit 2 stays 0, by decision (92 D2; log 7). -/
def Obligations.Returns : Prop :=
  ∀ s : State,
    (StackHas s 2 → Completes .ret s s (wordAt s s.sp) false (spBytes (s.sp + 2))) ∧
    (StackHas s 3 →
      Completes .reti s { s with nmis := false } (wordAt s s.sp) true
        (spBytes (s.sp + 3) ++ [(pswAddr, byteAt s (s.sp + 2) &&& 0xFB)]) ∧
      Completes .retb s s (wordAt s s.sp) true
        (spBytes (s.sp + 3) ++ [(pswAddr, byteAt s (s.sp + 2) &&& 0xFB)]))

/-- PUSH and POP (47 R310, R311); PSW bit 2 stays 0, by decision (92 D2; log 7). -/
def Obligations.PushAndPop : Prop :=
  ∀ (s : State) (p : RegPair),
    (StackRoom s 1 → Runs .pushPsw s ([(s.sp - 1, s.psw)] ++ spBytes (s.sp - 1))) ∧
    (StackRoom s 2 → Runs (.pushRp p) s
      ([(s.sp - 1, reg s (bank s) p.highReg), (s.sp - 2, reg s (bank s) p.lowReg)] ++ spBytes (s.sp - 2))) ∧
    (StackHas s 1 → Completes .popPsw s s (after .popPsw s) true
      (spBytes (s.sp + 1) ++ [(pswAddr, byteAt s s.sp &&& 0xFB)])) ∧
    (StackHas s 2 → Runs (.popRp p) s (spBytes (s.sp + 2) ++ pairBytes (bank s) p (wordAt s s.sp)))

/-- MOVW with SP (47 R312 to R314). -/
def Obligations.MovwStackPointer : Prop :=
  ∀ (s : State) (w : Word),
    Runs (.movwSpWord w) s (spBytes w) ∧
    Runs .movwSpAx s (spBytes (pair s (bank s) .ax)) ∧
    Runs .movwAxSp s (pairBytes (bank s) .ax s.sp)

/-- RETB undoes BRK: after both, PC is behind the BRK, and PSW and SP are as they were (47 R309, its last
example). -/
def Obligations.RetbUndoesBrk : Prop :=
  ∀ s : State, StackRoom s 3 → Readable s .word 0x003E → Readable s .word 0x003F → bitOf s.psw 2 = false →
    ∃ t u, exec .brk s = .next t ∧ exec .retb t = .next u ∧
      u.pc = s.pc + 1 ∧ u.psw = s.psw ∧ u.sp = s.sp ∧ u.hold = true ∧ u.nmis = s.nmis

/-- POP rp undoes PUSH rp: the pair and SP are as they were, also where the stack lies in the register banks. -/
def Obligations.PopUndoesPush : Prop :=
  ∀ (s : State) (p : RegPair), StackRoom s 2 →
    ∃ t u, exec (.pushRp p) s = .next t ∧ exec (.popRp p) t = .next u ∧
      pair u (bank u) p = pair s (bank s) p ∧ u.sp = s.sp ∧ u.psw = s.psw ∧ u.pc = s.pc + 2

/-! Branches. -/

/-- BR (48 R331 to R333). That the relative target wraps modulo 65536 is the spec's decision (48 R330; 92 D3; log 9). -/
def Obligations.UnconditionalBranches : Prop :=
  ∀ (s : State) (a : Addr) (j : Byte),
    Completes (.brAbs a) s s a false [] ∧
    Completes (.brRel j) s s (target (.brRel j) s j) false [] ∧
    Completes .brAx s s (reg s (bank s) .a ++ reg s (bank s) .x) false []

/-- BC, BNC, BZ, BNZ (48 R335 to R338): the branch on CY or Z, and nothing but PC changes. That the target wraps modulo
65536 is the spec's decision (48 R330; 92 D3; log 9). -/
def Obligations.BranchesOnFlags : Prop :=
  ∀ (s : State) (j : Byte),
    let go := fun (i : Instr) (c : Bool) => Completes i s s (if c then target i s j else after i s) false []
    go (.bc j) (bitOf s.psw 0) ∧ go (.bnc j) (!bitOf s.psw 0) ∧
    go (.bz j) (bitOf s.psw 6) ∧ go (.bnz j) (!bitOf s.psw 6)

/-- BT (v = 1) and BF (v = 0) (48 R340, R341): the operand is read and not written. A device SFR is read by an opaque
call (20_memory R79; log 13), and the target wraps modulo 65536 by decision (92 D3; log 9). -/
def Obligations.BranchesOnBits : Prop :=
  ∀ (s : State) (v : Bool) (n : BitVec 3) (j : Byte) (x : BitPlace), x.Named → Readable s .bit (x.addr s) →
    let i := branchIfBit v j n x
    Completes i s (noteRead s (x.addr s))
      (if (valueAt s (x.addr s)).getLsbD n.toNat = v then target i s j else after i s) false []

/-- BTCLR (48 R342): a bit that is 1 is cleared and branched on; a bit that is 0 leaves the byte unwritten. The whole
byte is written back (93 G3; log 29), BTCLR of PSW.7 holds no interrupt (92 D17; log 25), and the target wraps modulo
65536 (92 D3; log 9). A device SFR is read and written by opaque calls (20_memory R79; log 13). -/
def Obligations.TestAndClear : Prop :=
  ∀ (s : State) (n : BitVec 3) (j : Byte) (x : BitPlace), x.Named → Readable s .bit (x.addr s) →
    let i := branchAndClearBit j n x
    let t := valueAt s (x.addr s)
    (t.getLsbD n.toNat = true → Writable s .bit (x.addr s) →
      Completes i s (noteUpdate s (x.addr s) (replaceBit t n false)) (target i s j) false
        [(x.addr s, stored (x.addr s) (replaceBit t n false))]) ∧
    (t.getLsbD n.toNat = false → Completes i s (noteRead s (x.addr s)) (after i s) false [])

/-- DBNZ (48 R343): the decrement is stored whether or not the branch is taken, and no flag changes, but where the
byte is PSW itself, by decision (92 D1; log 8); the target wraps modulo 65536 (92 D3; log 9). A device SFR is read and
written by opaque calls (20_memory R79; log 13). -/
def Obligations.DecrementAndBranch : Prop :=
  ∀ (s : State) (o j : Byte),
    let go := fun (i : Instr) (a : Addr) =>
      Completes i s (noteUpdate s a (valueAt s a - 1)) (if valueAt s a - 1 = 0 then after i s else target i s j) false
        [(a, stored a (valueAt s a - 1))]
    go (.dbnzB j) (regAddr (bank s) .b) ∧ go (.dbnzC j) (regAddr (bank s) .c) ∧
    (Readable s .byte (effAddr s (.saddr o)) → Writable s .byte (effAddr s (.saddr o)) →
      go (.dbnzSaddr o j) (effAddr s (.saddr o)))

/-! CPU control, interrupts, standby and reset. -/

/-- SEL, NOP, EI, DI (49 R360 to R363): SEL changes the two bank bits, and the next instruction uses bank b. -/
def Obligations.CpuControl : Prop :=
  ∀ (s : State) (b : BitVec 2),
    (∃ t, exec (.sel b) s = .next t ∧ bank t = b ∧
      Effect s t (after (.sel b) s) false
        [(pswAddr, (s.psw &&& 0xD7) ||| (if b.getLsbD 1 then 0x20 else 0x00) |||
          (if b.getLsbD 0 then 0x08 else 0x00))]) ∧
    Runs .nop s [] ∧
    Completes .ei s s (after .ei s) true [(pswAddr, s.psw ||| 0x80)] ∧
    Completes .di s s (after .di s) true [(pswAddr, s.psw &&& 0x7F)]

/-- HALT and STOP (49 R364, R365) set the mode and nothing else. -/
def Obligations.HaltAndStop : Prop :=
  ∀ s : State,
    Completes .halt s { s with mode := .halt } (after .halt s) false [] ∧
    Completes .stop s { s with mode := .stop } (after .stop s) false []

/-- Which source is acknowledged (60 R412, R414): none if none meets the condition; else one that does, of the lowest
rank, the first in the order of the sources among those of its rank. In Halt and Stop only a source that ends the
mode counts. The order and the standby rule are the spec's decisions (92 D14, D16; logs 21, 24). -/
def Obligations.AcknowledgedSource : Prop :=
  ∀ s : State,
    (selected s = none ↔ ∀ src ∈ s.cfg.sources, ¬(CanAcknowledge s src ∧ wakes s src = true)) ∧
    ∀ src, selected s = some src →
      CanAcknowledge s src ∧ wakes s src = true ∧
      (∀ o ∈ s.cfg.sources, CanAcknowledge s o → wakes s o = true → rank s src ≤ rank s o) ∧
      ∃ pre post, s.cfg.sources = pre ++ src :: post ∧
        ∀ o ∈ pre, CanAcknowledge s o → wakes s o = true → rank s src < rank s o

/-- Acknowledging an interrupt (60 R410, R413): the frame of BRK with the interrupted PC, IE cleared, NMIS set or ISP
set to PR, the request cleared, Run mode, PC from the vector. A source's flags are SFR bits, and its vector lies in the
table (60 R408, R409). All this is the spec's decision (92 D12 to D14; logs 19 to 22). -/
def Obligations.InterruptAcknowledgement : Prop :=
  ∀ (s : State) (src : IntSource), selected s = some src → StackRoom s 3 →
    src.vector.toNat ≤ 0x003C → Readable s .word src.vector → Readable s .word (src.vector + 1) →
    let frame := [(s.sp - 1, s.psw), (s.sp - 2, hiByte s.pc), (s.sp - 3, loByte s.pc)] ++ spBytes (s.sp - 3)
    (src.kind = .nonMaskable →
      ∃ t, step s = .next t ∧
        Effect { s with nmis := true, nmiPending := s.nmiPending &&& ~~~(1#32 <<< vectorIndex src), mode := .run } t
          (wordAt t src.vector) false (frame ++ [(pswAddr, s.psw &&& 0x7F)])) ∧
    (∀ request mask priority, src.kind = .maskable request mask priority →
      inSfrArea request.addr = true → isControl request.addr = false →
      inSfrArea priority.addr = true → isControl priority.addr = false →
      ∃ t, step s = .next t ∧
        Effect { s with mode := .run } t (wordAt t src.vector) false
          (frame ++ [(pswAddr, replaceBit (s.psw &&& 0x7F) 1 (flagAt s priority)),
            (request.addr, replaceBit (byteAt s request.addr) request.bit false)]))

/-- Standby without an acknowledgement (60 R432), by decision (92 D16; log 24): an unmasked request of a source that ends
the mode returns to Run mode, and nothing else changes; without one the state stays as it is. That a request that was
pending before the mode was entered counts as well is the model's choice (log 24). -/
def Obligations.StandbyWaitsForRelease : Prop :=
  ∀ s : State, s.mode ≠ .run → selected s = none →
    ((∃ src ∈ s.cfg.sources, wakes s src = true ∧ requested s src = true ∧ unmasked s src = true) →
      step s = .next { s with mode := .run }) ∧
    ((∀ src ∈ s.cfg.sources, ¬(wakes s src = true ∧ requested s src = true ∧ unmasked s src = true)) →
      step s = .next s)

/-- The state after reset has the values the spec gives (10_state R45), PC the word at 0000H; NMIS is 0 by decision (92
D9; log 6). -/
def Obligations.ResetValuesHold : Prop :=
  State.reset.psw = 0x02 ∧ State.reset.pc = wordAt State.reset 0x0000 ∧ State.reset.hold = false ∧
  State.reset.mode = .run ∧ State.reset.nmis = false ∧ bank State.reset = 0

/-- RESET input (70_reset R452 to R455): PSW, NMIS, `hold`, mode and PC as the rules give them; SP, RAM and registers as
`ResetValues` says; SFRs per `SfrMap`; the program image kept; the product kept. NMIS 0 is a decision (92 D9; log 6), the
non-maskable requests an argument (91 N21; logs 22, 30). Of a device SFR it is the byte held that has the reset value;
what it reads as is free (log 13). -/
def Obligations.ResetInput : Prop :=
  ∀ (s : State) (v : ResetValues), s.cfg.ok = true → v.ram.wf = true →
    let t := s.resetInput v
    t.psw = 0x02 ∧ t.sp = v.sp ∧ t.nmis = false ∧ t.nmiPending = v.nmiPending ∧ t.hold = false ∧ t.mode = .run ∧
    t.pc = wordAt t 0x0000 ∧ t.cfg = s.cfg ∧ t.sfrLog = .reset :: s.sfrLog ∧
    (∀ a, ramAtReset s.cfg a.toNat = true → byteAt t a = v.ram.read a.toNat) ∧
    (∀ a, keptAtReset s.cfg a.toNat = true → byteAt t a = byteAt s a) ∧
    (∀ f ∈ s.cfg.sfrs, byteAt t f.addr = f.resetValue)

/-! The whole machine. -/

/-- A step runs the instruction that the bytes at PC decode to, or that the product decodes an unassigned code as
(`UndefinedOpcode`, 92 D6; log 16); `hold` is also set where the product's `HoldSet` names more than the seven instructions
(92 D17; log 25). With neither, a step is `exec` of the instruction. -/
def Obligations.StepRunsDecoded : Prop :=
  ∀ (s : State) (i : Instr) (rest : List Byte), selected s = none → s.mode = .run →
    decode (fetchWindow s) = .ok (i, rest) ∧ i.wf = true ∨
      (∃ code other, decode (fetchWindow s) = .error (.undefined code) ∧ aliasOf s.cfg code = some other ∧
        decode (other ++ (fetchWindow s).drop code.length) = .ok (i, rest)) →
    (∀ t, exec i s = .next t →
      step s = .next { t with hold := t.hold || s.cfg.moreHold.any (fun p => p.matches (encode i)) }) ∧
    (∀ f, exec i s = .fault f → step s = .fault f) ∧
    (s.cfg.moreHold = [] → step s = exec i s)

/-- Where an instruction's encoding stands at PC, in bytes that can be fetched, a step runs it (20_memory R74), and then
holds interrupts if the product's `HoldSet` says so (92 D17; log 25). -/
def Obligations.StepRunsEncodedBytes : Prop :=
  ∀ (s : State) (i : Instr), i.wf = true → selected s = none → s.mode = .run →
    (∀ k < i.length, fetchFault s (s.pc + BitVec.ofNat 16 k) = none ∧
      byteAt s (s.pc + BitVec.ofNat 16 k) = (encode i).getD k 0) →
    step s = applyHoldSet s.cfg i (exec i s)

/-- Every step keeps the invariant: memory in canonical form, over its own addresses, and PSW bit 2 at 0. -/
def Obligations.StepKeepsInvariant : Prop :=
  ∀ s t : State, StateInv s → step s = .next t → StateInv t

/-- The invariant holds after reset. -/
def Obligations.InvariantAtReset : Prop := StateInv State.reset

/-- Requests, peripherals and RESET keep the invariant. -/
def Obligations.EnvironmentKeepsInvariant : Prop :=
  ∀ s : State, StateInv s →
    (∀ k, StateInv (s.request k)) ∧ (∀ a v, StateInv (s.peripheral a v)) ∧ (∀ v, StateInv (s.resetInput v))

/-- `hold` after an instruction is true exactly for the seven instructions of `HoldSet` (10_state R42; 60 R415); that it
is these seven and no others is the parameter's default (92 D17; log 25). After a step it is true exactly for these and
what the product adds. -/
def Obligations.HoldAfterHoldSetOnly : Prop :=
  ∀ (i : Instr) (s t : State), i.wf = true →
    (exec i s = .next t → t.hold = inHoldSet i) ∧
    (selected s = none → s.mode = .run → fetch s = .ok i → step s = .next t →
      t.hold = (inHoldSet i || s.cfg.moreHold.any (fun p => p.matches (encode i))))

/-- No instruction changes NMIS but RETI, which clears it (10_state R40); none changes the product or a non-maskable
request; only HALT and STOP change the mode (10_state R43). -/
def Obligations.HiddenStateChangesOnlyAsNamed : Prop :=
  ∀ (i : Instr) (s t : State), exec i s = .next t →
    t.nmis = (if i = .reti then false else s.nmis) ∧
    t.mode = (if i = .halt then .halt else if i = .stop then .stop else s.mode) ∧
    t.cfg = s.cfg ∧ t.nmiPending = s.nmiPending

/-- An instruction that does not set PC ends behind its own encoding (10_state R28). -/
def Obligations.PcMovesPastInstruction : Prop :=
  ∀ (i : Instr) (s t : State), setsPc i = false → exec i s = .next t →
    t.pc = s.pc + BitVec.ofNat 16 (encode i).length

/-- Accesses that stop the machine (60_exceptions R401), each with its fault: an sfr-offset D0H to DFH in every form with an
sfr operand, a word operand at an odd address, a byte, bit or word that cannot be read or written, a stack address outside
the internal high-speed RAM. The faults are the spec's decisions (92 D4, D5, D7; logs 10, 11, 12, 14); that an odd
sfr-offset of D1H to DFH gives `sfrOffset`, not `oddWord`, is the model's choice (log 10). -/
def Obligations.AccessFaults : Prop :=
  ∀ (s : State) (m : MemOperand) (x : BitPlace) (op : AluOp) (bit : BitOp) (i : Instr) (n : BitVec 3) (v : Bool)
    (o d j : Byte) (w : Word) (e : BitVec 11) (c : BitVec 5) (p : RegPair) (f : Fault),
    let ea := effAddr s m
    let sa := effAddr s (.saddr o)
    let stops := fun (k : Instr) => exec k s = .fault f
    (0xD0 ≤ o.toNat ∧ o.toNat ≤ 0xDF → f = .sfrOffset s.pc (0xFF00 + o.setWidth 16) →
      ∀ k ∈ [Instr.movSfrImm o d, .movASfr o, .movSfrA o, .xchASfr o, .movwSfrpWord o w, .movwAxSfrp o, .movwSfrpAx o,
        bitIntoCy bit n (.sfr o), cyIntoBit n (.sfr o), constantIntoBit v n (.sfr o), branchIfBit v j n (.sfr o),
        branchAndClearBit j n (.sfr o)], stops k) ∧
    (movwLoad m = some i ∨ movwStoreAx m = some i ∨ movwStoreWord w m = some i → Named m → ea.getLsbD 0 = true →
      f = .oddWord s.pc ea → stops i) ∧
    (movwLoad m = some i → Named m → ea.getLsbD 0 = false →
      checkRead s .word ea = .error f ∨ (Readable s .word ea ∧ checkRead s .word (ea + 1) = .error f) → stops i) ∧
    (movwStoreAx m = some i ∨ movwStoreWord w m = some i → Named m → ea.getLsbD 0 = false →
      checkWrite s .word ea = .error f ∨ (Writable s .word ea ∧ checkWrite s .word (ea + 1) = .error f) → stops i) ∧
    (Named m → checkRead s .byte ea = .error f →
      stops (movLoad m) ∧ stops (xchMemory m) ∧ (aluMemory op m = some i → stops i)) ∧
    (Named m → checkWrite s .byte ea = .error f →
      stops (movStore m) ∧ (movStoreImm d m = some i → stops i) ∧ (Readable s .byte ea → stops (xchMemory m))) ∧
    (checkRead s .byte sa = .error f →
      stops (aluSaddr op o d) ∧ stops (.incSaddr o) ∧ stops (.decSaddr o) ∧ stops (.dbnzSaddr o j)) ∧
    (Readable s .byte sa → checkWrite s .byte sa = .error f →
      (op ≠ .cmp → stops (aluSaddr op o d)) ∧ stops (.incSaddr o) ∧ stops (.decSaddr o) ∧ stops (.dbnzSaddr o j)) ∧
    (m = .hl → ea.toNat < 0xFF00 →
      checkRead s .byte ea = .error f ∨ (Readable s .byte ea ∧ checkWrite s .byte ea = .error f) →
      stops .ror4 ∧ stops .rol4) ∧
    (x.Named → checkRead s .bit (x.addr s) = .error f →
      ∀ k ∈ [bitIntoCy bit n x, cyIntoBit n x, constantIntoBit v n x, branchIfBit v j n x, branchAndClearBit j n x],
        stops k) ∧
    (x.Named → Readable s .bit (x.addr s) → checkWrite s .bit (x.addr s) = .error f →
      stops (cyIntoBit n x) ∧ stops (constantIntoBit v n x) ∧
        ((valueAt s (x.addr s)).getLsbD n.toNat = true → stops (branchAndClearBit j n x))) ∧
    (inIhram s.cfg (s.sp - 1) = false → f = .stackOutside s.pc (s.sp - 1) →
      ∀ k ∈ [Instr.pushPsw, .pushRp p, .call w, .callf e, .callt c, .brk], stops k) ∧
    (inIhram s.cfg (s.sp - 1) = true → inIhram s.cfg (s.sp - 2) = false → f = .stackOutside s.pc (s.sp - 2) →
      ∀ k ∈ [Instr.pushRp p, .call w, .callf e, .callt c, .brk], stops k) ∧
    (StackRoom s 2 → inIhram s.cfg (s.sp - 3) = false → f = .stackOutside s.pc (s.sp - 3) → stops .brk) ∧
    (inIhram s.cfg s.sp = false → f = .stackOutside s.pc s.sp →
      ∀ k ∈ [Instr.popPsw, .popRp p, .ret, .reti, .retb], stops k) ∧
    (inIhram s.cfg s.sp = true → inIhram s.cfg (s.sp + 1) = false → f = .stackOutside s.pc (s.sp + 1) →
      ∀ k ∈ [Instr.popRp p, .ret, .reti, .retb], stops k) ∧
    (StackHas s 2 → inIhram s.cfg (s.sp + 2) = false → f = .stackOutside s.pc (s.sp + 2) → stops .reti ∧ stops .retb)

/-- Which fault stops an access: nothing allocated there, or not the direction or unit allowed (20_memory R69, R72, R73,
R79; 92 D5; logs 11 to 13). -/
def Obligations.FaultsNameTheirReason : Prop :=
  ∀ (s : State) (u : AccessUnit) (a : Addr), isControl a = false →
    (inSfrArea a = true → sfrAt s.cfg a = none →
      checkRead s u a = .error (.sfrUnallocated s.pc a) ∧ checkWrite s u a = .error (.sfrUnallocated s.pc a)) ∧
    (∀ f, inSfrArea a = true → sfrAt s.cfg a = some f →
      (f.readable = false → checkRead s u a = .error (.notReadable s.pc a)) ∧
      (f.writable = false → checkWrite s u a = .error (.notWritable s.pc a)) ∧
      (f.readable = true → sfrAllows f u = false → checkRead s u a = .error (.sfrUnit s.pc a)) ∧
      (f.writable = true → sfrAllows f u = false → checkWrite s u a = .error (.sfrUnit s.pc a))) ∧
    (inSfrArea a = false → inIhram s.cfg a = false → regionAt s.cfg a = none →
      checkRead s u a = .error (.unallocated s.pc a) ∧ checkWrite s u a = .error (.unallocated s.pc a)) ∧
    (∀ r, inSfrArea a = false → inIhram s.cfg a = false → regionAt s.cfg a = some r →
      (r.readable = false → checkRead s u a = .error (.notReadable s.pc a)) ∧
      (r.writable = false → checkWrite s u a = .error (.notWritable s.pc a)))

/-- An undefined code at PC, in bytes that can be fetched, is a fault with its address and bytes, unless the product decodes
it as another (30_encoding R125; 92 D6; log 16); and the first byte of an instruction that cannot be fetched, be it its
first, second, third or fourth, stops the machine (20_memory R74; 92 D5; log 11). -/
def Obligations.FetchFaults : Prop :=
  ∀ s : State, selected s = none → s.mode = .run →
    let b := byteAt s s.pc
    let b2 := byteAt s (s.pc + 1)
    (∀ (i : Instr) (k : Nat) (f : Fault), i.wf = true → k < i.length →
      (∀ j < k, fetchFault s (s.pc + BitVec.ofNat 16 j) = none ∧
        byteAt s (s.pc + BitVec.ofNat 16 j) = (encode i).getD j 0) →
      fetchFault s (s.pc + BitVec.ofNat 16 k) = some f → step s = .fault f) ∧
    (fetchFault s s.pc = none → undefinedFirst b = true → aliasOf s.cfg [b] = none →
      step s = .fault (.undefinedOpcode s.pc [b])) ∧
    (fetchFault s s.pc = none → fetchFault s (s.pc + 1) = none →
      (b = 0x31 ∧ definedAfter31 b2 = false ∨ b = 0x61 ∧ definedAfter61 b2 = false ∨
        b = 0x71 ∧ definedAfter71 b2 = false) → aliasOf s.cfg [b, b2] = none →
      step s = .fault (.undefinedOpcode s.pc [b, b2]))
end

