-- ==== Sys2Proof/Laws/Flags.lean ====
section
/-! SUPPORT. What the flag computations write to PSW, in terms of the flags as the rules give them. -/

namespace Sys2Proof.Machine

theorem withBit_getLsbD (v : Byte) (n : BitVec 3) (b : Bool) (i : Nat) :
    (withBit v n b).getLsbD i = if i = n.toNat then b else v.getLsbD i := by
  have hn : n.toNat < 8 := n.isLt
  simp only [withBit, BitVec.getLsbD_or, BitVec.getLsbD_and, BitVec.getLsbD_not, BitVec.getLsbD_shiftLeft,
    BitVec.getLsbD_setWidth, BitVec.getLsbD_ofBool]
  by_cases hi : i < 8
  · by_cases h : i = n.toNat
    · subst h; simp [hi]
    · by_cases h2 : i < n.toNat
      · simp [hi, h, h2]
      · have h3 : i - n.toNat ≠ 0 := by omega
        simp [hi, h, h2, h3, BitVec.getLsbD_one]
  · have : v.getLsbD i = false := BitVec.getLsbD_of_ge v i (by omega)
    simp [hi, this]
    omega

/-- Writing a bit is setting or clearing it. -/
theorem withBit_eq_replaceBit (v : Byte) (n : BitVec 3) (b : Bool) : withBit v n b = replaceBit v n b := by
  apply BitVec.eq_of_getLsbD_eq
  intro i hi
  rw [withBit_getLsbD]
  have hn : n.toNat < 8 := n.isLt
  cases b <;> by_cases h : i = n.toNat
  · subst h; simp [replaceBit, hi]
  · by_cases h2 : i < n.toNat
    · simp [replaceBit, hi, h, h2]
    · have h3 : i - n.toNat ≠ 0 := by omega
      simp [replaceBit, hi, h, h2, h3]
  · subst h; simp [replaceBit, hi]
  · by_cases h2 : i < n.toNat
    · simp [replaceBit, hi, h, h2]
    · have h3 : i - n.toNat ≠ 0 := by omega
      simp [replaceBit, hi, h, h2, h3]

theorem bitOf_withBit (v : Byte) (n m : BitVec 3) (b : Bool) :
    bitOf (withBit v n b) m = if m = n then b else bitOf v m := by
  simp only [bitOf, withBit_getLsbD]
  by_cases h : m = n
  · simp [h]
  · have : m.toNat ≠ n.toNat := fun h' => h (BitVec.eq_of_toNat_eq h')
    simp [h, this]

/-- Writing Z, AC and CY keeps the other bits of PSW. -/
theorem flagsInto_some (p : Byte) (z ac cy : Bool) :
    flagsInto p { z := some z, ac := some ac, cy := some cy } = pswFlags p z ac cy := by
  revert p; revert z ac cy; decide

/-- A flag that is not written keeps its value. -/
theorem flagsInto_eq (p : Byte) (u : FlagUpdate) :
    flagsInto p u = pswFlags p (u.z.getD (bitOf p 6)) (u.ac.getD (bitOf p 4)) (u.cy.getD (bitOf p 0)) := by
  rw [← flagsInto_some]
  obtain ⟨z, ac, cy⟩ := u
  apply BitVec.eq_of_getLsbD_eq
  intro i hi
  have h6 : (zBit : BitVec 3).toNat = 6 := rfl
  have h4 : (acBit : BitVec 3).toNat = 4 := rfl
  have h0 : (cyBit : BitVec 3).toNat = 0 := rfl
  cases z <;> cases ac <;> cases cy <;>
    simp only [flagsInto, writeFlag, withBit_getLsbD, Option.getD_none, Option.getD_some, h6, h4, h0, bitOf] <;>
    (split_ifs <;> first | rfl | omega | (subst_vars; rfl))

/-- The 8-bit operations give the result of the rules. -/
theorem aluEval_result (op : AluOp) (d s : Byte) (c : Bool) : (aluEval op d s c).1 = aluResult op d s c := by
  cases op <;> simp only [aluEval, aluResult, addFlags, subFlags, logicFlags] <;> apply BitVec.eq_of_toNat_eq <;>
    cases c <;>
    simp [BitVec.toNat_add, BitVec.toNat_sub, BitVec.toNat_ofInt] <;> omega

/-- The 8-bit operations write the flags of the rules. -/
theorem flagsInto_aluEval (op : AluOp) (p d s : Byte) (c : Bool) :
    flagsInto p (aluEval op d s c).2 = aluPsw op p d s c := by
  have h := aluEval_result op d s c
  rw [flagsInto_eq]
  have hd := d.isLt
  have hs := s.isLt
  cases op <;>
    simp only [aluPsw, ← h, aluEval, addFlags, subFlags, logicFlags, Option.getD_some, Option.getD_none, bitOf] <;>
    first
    | rfl
    | (congr 1 <;> (rw [decide_eq_decide]; cases c <;> simp <;> omega))

end Sys2Proof.Machine
end

