-- ==== Sys2Proof/Laws/Memory.lean ====
section
/-! SUPPORT. What reading after writing gives, and that every memory operation keeps the canonical form. -/

namespace Sys2Proof.Machine

@[simp] theorem read_erase_same (m : Memory) (a : Nat) : (Memory.erase m a).read a = Memory.unlisted a := by
  induction m with
  | nil => rfl
  | cons c m ih =>
    obtain ⟨k, w⟩ := c
    simp only [Memory.erase]
    split
    · exact ih
    · simp [Memory.read, *]

theorem read_erase_other (m : Memory) {a b : Nat} (h : b ≠ a) : (Memory.erase m a).read b = m.read b := by
  induction m with
  | nil => rfl
  | cons c m ih =>
    obtain ⟨k, w⟩ := c
    simp only [Memory.erase, Memory.read]
    split
    · subst k; simp [ih, Ne.symm h]
    · simp [Memory.read, ih]

@[simp] theorem read_insert_same (m : Memory) (a : Nat) (v : Byte) : (Memory.insert m a v).read a = v := by
  induction m with
  | nil => simp [Memory.insert, Memory.read]
  | cons c m ih =>
    obtain ⟨k, w⟩ := c
    simp only [Memory.insert]
    split_ifs with h1 h2
    · simp [Memory.read]
    · simp [Memory.read]
    · simp [Memory.read, ih, Ne.symm h2]

theorem read_insert_other (m : Memory) {a b : Nat} (v : Byte) (h : b ≠ a) :
    (Memory.insert m a v).read b = m.read b := by
  induction m with
  | nil => simp [Memory.insert, Memory.read, Ne.symm h]
  | cons c m ih =>
    obtain ⟨k, w⟩ := c
    simp only [Memory.insert]
    split_ifs with h1 h2
    · simp [Memory.read, Ne.symm h]
    · subst h2; simp [Memory.read, Ne.symm h]
    · simp [Memory.read, ih]

/-- Reading the address just stored to gives the byte stored; every other address reads as before. -/
theorem read_write (m : Memory) (a b : Nat) (v : Byte) :
    (m.write a v).read b = if b = a then v else m.read b := by
  unfold Memory.write
  split_ifs with hv hb hb
  · subst hb; simp [hv]
  · exact read_erase_other m hb
  · subst hb; simp
  · exact read_insert_other m v hb

theorem above_of_lt {b c : Nat} {m : Memory} (h : Memory.above b m = true) (hc : c ≤ b) :
    Memory.above c m = true := by
  simp only [Memory.above, List.all_eq_true, decide_eq_true_eq] at *
  exact fun x hx => lt_of_le_of_lt hc (h x hx)

theorem keysIn_erase {p : Nat → Bool} {m : Memory} (a : Nat) (h : m.keysIn p = true) :
    (Memory.erase m a).keysIn p = true := by
  induction m with
  | nil => rfl
  | cons c m ih =>
    obtain ⟨k, w⟩ := c
    simp only [Memory.keysIn, List.all_cons, Bool.and_eq_true] at h ih ⊢
    simp only [Memory.erase]
    split
    · exact ih h.2
    · simp [h.1, ih h.2]

theorem keysIn_insert {p : Nat → Bool} {m : Memory} {a : Nat} (v : Byte) (ha : p a = true)
    (h : m.keysIn p = true) : (Memory.insert m a v).keysIn p = true := by
  induction m with
  | nil => simp [Memory.insert, Memory.keysIn, ha]
  | cons c m ih =>
    obtain ⟨k, w⟩ := c
    simp only [Memory.keysIn, List.all_cons, Bool.and_eq_true] at h ih ⊢
    simp only [Memory.insert]
    split_ifs
    · simp [ha, h.1, h.2]
    · simp [ha, h.2]
    · simp [h.1, ih h.2]

theorem above_erase {b : Nat} {m : Memory} (a : Nat) (h : Memory.above b m = true) :
    Memory.above b (Memory.erase m a) = true := keysIn_erase (p := fun k => b < k) a h

theorem above_insert {b : Nat} {m : Memory} {a : Nat} (v : Byte) (ha : b < a) (h : Memory.above b m = true) :
    Memory.above b (Memory.insert m a v) = true := keysIn_insert (p := fun k => b < k) v (by simpa using ha) h

theorem wf_erase {m : Memory} (a : Nat) (h : m.wf = true) : (Memory.erase m a).wf = true := by
  induction m with
  | nil => rfl
  | cons c m ih =>
    obtain ⟨k, w⟩ := c
    simp only [Memory.wf, Bool.and_eq_true] at h
    simp only [Memory.erase]
    split
    · exact ih h.2
    · simp only [Memory.wf, Bool.and_eq_true]
      exact ⟨⟨h.1.1, above_erase a h.1.2⟩, ih h.2⟩

theorem wf_insert {m : Memory} (a : Nat) {v : Byte} (hv : v ≠ Memory.unlisted a) (h : m.wf = true) :
    (Memory.insert m a v).wf = true := by
  induction m with
  | nil => simp [Memory.insert, Memory.wf, Memory.above, hv]
  | cons c m ih =>
    obtain ⟨k, w⟩ := c
    have h' := h
    simp only [Memory.wf, Bool.and_eq_true] at h
    simp only [Memory.insert]
    split_ifs with h1 h2
    · have := above_of_lt h.1.2 h1.le
      simp only [Memory.above] at this
      simp [Memory.wf, Memory.above, hv, h1, this, h.1.1, h.2]
      simpa [Memory.above] using h.1.2
    · subst h2
      simp only [Memory.wf, Bool.and_eq_true]
      exact ⟨⟨by simpa using hv, h.1.2⟩, h.2⟩
    · simp only [Memory.wf, Bool.and_eq_true]
      exact ⟨⟨h.1.1, above_insert v (by omega) h.1.2⟩, ih h.2⟩

/-- A store keeps the canonical form. -/
theorem wf_write {m : Memory} (a : Nat) (v : Byte) (h : m.wf = true) : (m.write a v).wf = true := by
  unfold Memory.write
  split_ifs with hv
  · exact wf_erase a h
  · exact wf_insert a hv h

/-- A store to an address with the property `p` lists no address without it. -/
theorem keysIn_write {p : Nat → Bool} {m : Memory} {a : Nat} (v : Byte) (ha : p a = true) (h : m.keysIn p = true) :
    (m.write a v).keysIn p = true := by
  unfold Memory.write
  split_ifs
  · exact keysIn_erase a h
  · exact keysIn_insert v ha h

theorem above_restrict {p : Nat → Bool} {b : Nat} {m : Memory} (h : Memory.above b m = true) :
    Memory.above b (m.restrict p) = true := by
  simp only [Memory.above, Memory.restrict, List.all_eq_true, List.mem_filter] at *
  exact fun x hx => h x hx.1

/-- Taking a part of memory keeps the canonical form. -/
theorem wf_restrict (p : Nat → Bool) {m : Memory} (h : m.wf = true) : (m.restrict p).wf = true := by
  induction m with
  | nil => rfl
  | cons c m ih =>
    obtain ⟨k, w⟩ := c
    simp only [Memory.wf, Bool.and_eq_true] at h
    simp only [Memory.restrict, List.filter_cons]
    split
    · simp only [Memory.wf, Bool.and_eq_true]
      exact ⟨⟨h.1.1, above_restrict h.1.2⟩, ih h.2⟩
    · exact ih h.2

theorem keysIn_restrict {p q : Nat → Bool} {m : Memory} (h : ∀ a, q a = true → p a = true) :
    (m.restrict q).keysIn p = true := by
  simp only [Memory.keysIn, Memory.restrict, List.all_eq_true, List.mem_filter]
  exact fun x hx => h _ hx.2

/-- Storing a list of cells keeps the canonical form. -/
theorem wf_writeAll {m : Memory} (cells : List Host.Cell) (h : m.wf = true) : (m.writeAll cells).wf = true := by
  induction cells generalizing m with
  | nil => exact h
  | cons c cells ih => exact ih (wf_write _ _ h)

theorem keysIn_writeAll {p : Nat → Bool} {m : Memory} {cells : List Host.Cell}
    (hc : ∀ c ∈ cells, p c.1 = true) (h : m.keysIn p = true) : (m.writeAll cells).keysIn p = true := by
  induction cells generalizing m with
  | nil => exact h
  | cons c cells ih =>
    exact ih (fun d hd => hc d (List.mem_cons_of_mem _ hd)) (keysIn_write _ (hc c (List.mem_cons_self ..)) h)

end Sys2Proof.Machine
end

