-- ==== Sys2Proof/Laws/State.lean ====
section
/-! SUPPORT. What each named update of the state leaves in each field. -/

namespace Sys2Proof.Machine

@[simp] theorem withPsw_cfg (s : State) (v : Byte) : (withPsw s v).cfg = s.cfg := rfl
@[simp] theorem withPsw_mem (s : State) (v : Byte) : (withPsw s v).mem = s.mem := rfl
@[simp] theorem withPsw_pc (s : State) (v : Byte) : (withPsw s v).pc = s.pc := rfl
@[simp] theorem withPsw_psw (s : State) (v : Byte) : (withPsw s v).psw = v := rfl
@[simp] theorem withPsw_sp (s : State) (v : Byte) : (withPsw s v).sp = s.sp := rfl
@[simp] theorem withPsw_nmis (s : State) (v : Byte) : (withPsw s v).nmis = s.nmis := rfl
@[simp] theorem withPsw_nmiPending (s : State) (v : Byte) : (withPsw s v).nmiPending = s.nmiPending := rfl
@[simp] theorem withPsw_hold (s : State) (v : Byte) : (withPsw s v).hold = s.hold := rfl
@[simp] theorem withPsw_mode (s : State) (v : Byte) : (withPsw s v).mode = s.mode := rfl
@[simp] theorem withPsw_freeCount (s : State) (v : Byte) : (withPsw s v).freeCount = s.freeCount := rfl
@[simp] theorem withPsw_sfrLog (s : State) (v : Byte) : (withPsw s v).sfrLog = s.sfrLog := rfl

@[simp] theorem withSp_cfg (s : State) (v : Word) : (withSp s v).cfg = s.cfg := rfl
@[simp] theorem withSp_mem (s : State) (v : Word) : (withSp s v).mem = s.mem := rfl
@[simp] theorem withSp_pc (s : State) (v : Word) : (withSp s v).pc = s.pc := rfl
@[simp] theorem withSp_psw (s : State) (v : Word) : (withSp s v).psw = s.psw := rfl
@[simp] theorem withSp_sp (s : State) (v : Word) : (withSp s v).sp = v := rfl
@[simp] theorem withSp_nmis (s : State) (v : Word) : (withSp s v).nmis = s.nmis := rfl
@[simp] theorem withSp_nmiPending (s : State) (v : Word) : (withSp s v).nmiPending = s.nmiPending := rfl
@[simp] theorem withSp_hold (s : State) (v : Word) : (withSp s v).hold = s.hold := rfl
@[simp] theorem withSp_mode (s : State) (v : Word) : (withSp s v).mode = s.mode := rfl
@[simp] theorem withSp_freeCount (s : State) (v : Word) : (withSp s v).freeCount = s.freeCount := rfl
@[simp] theorem withSp_sfrLog (s : State) (v : Word) : (withSp s v).sfrLog = s.sfrLog := rfl

@[simp] theorem setPsw_cfg (s : State) (v : Byte) : (setPsw s v).cfg = s.cfg := rfl
@[simp] theorem setPsw_mem (s : State) (v : Byte) : (setPsw s v).mem = s.mem := rfl
@[simp] theorem setPsw_pc (s : State) (v : Byte) : (setPsw s v).pc = s.pc := rfl
@[simp] theorem setPsw_psw (s : State) (v : Byte) : (setPsw s v).psw = v &&& 0xFB := rfl
@[simp] theorem setPsw_sp (s : State) (v : Byte) : (setPsw s v).sp = s.sp := rfl
@[simp] theorem setPsw_nmis (s : State) (v : Byte) : (setPsw s v).nmis = s.nmis := rfl
@[simp] theorem setPsw_nmiPending (s : State) (v : Byte) : (setPsw s v).nmiPending = s.nmiPending := rfl
@[simp] theorem setPsw_hold (s : State) (v : Byte) : (setPsw s v).hold = s.hold := rfl
@[simp] theorem setPsw_mode (s : State) (v : Byte) : (setPsw s v).mode = s.mode := rfl
@[simp] theorem setPsw_freeCount (s : State) (v : Byte) : (setPsw s v).freeCount = s.freeCount := rfl
@[simp] theorem setPsw_sfrLog (s : State) (v : Byte) : (setPsw s v).sfrLog = s.sfrLog := rfl

@[simp] theorem setFlags_cfg (s : State) (u : FlagUpdate) : (setFlags s u).cfg = s.cfg := rfl
@[simp] theorem setFlags_mem (s : State) (u : FlagUpdate) : (setFlags s u).mem = s.mem := rfl
@[simp] theorem setFlags_pc (s : State) (u : FlagUpdate) : (setFlags s u).pc = s.pc := rfl
@[simp] theorem setFlags_psw (s : State) (u : FlagUpdate) : (setFlags s u).psw = flagsInto s.psw u := rfl
@[simp] theorem setFlags_sp (s : State) (u : FlagUpdate) : (setFlags s u).sp = s.sp := rfl
@[simp] theorem setFlags_nmis (s : State) (u : FlagUpdate) : (setFlags s u).nmis = s.nmis := rfl
@[simp] theorem setFlags_nmiPending (s : State) (u : FlagUpdate) : (setFlags s u).nmiPending = s.nmiPending := rfl
@[simp] theorem setFlags_hold (s : State) (u : FlagUpdate) : (setFlags s u).hold = s.hold := rfl
@[simp] theorem setFlags_mode (s : State) (u : FlagUpdate) : (setFlags s u).mode = s.mode := rfl
@[simp] theorem setFlags_freeCount (s : State) (u : FlagUpdate) : (setFlags s u).freeCount = s.freeCount := rfl
@[simp] theorem setFlags_sfrLog (s : State) (u : FlagUpdate) : (setFlags s u).sfrLog = s.sfrLog := rfl

@[simp] theorem advance_cfg (s : State) (len : Addr) (h : Bool) : (advance s len h).cfg = s.cfg := rfl
@[simp] theorem advance_mem (s : State) (len : Addr) (h : Bool) : (advance s len h).mem = s.mem := rfl
@[simp] theorem advance_pc (s : State) (len : Addr) (h : Bool) : (advance s len h).pc = s.pc + len := rfl
@[simp] theorem advance_psw (s : State) (len : Addr) (h : Bool) : (advance s len h).psw = s.psw := rfl
@[simp] theorem advance_sp (s : State) (len : Addr) (h : Bool) : (advance s len h).sp = s.sp := rfl
@[simp] theorem advance_nmis (s : State) (len : Addr) (h : Bool) : (advance s len h).nmis = s.nmis := rfl
@[simp] theorem advance_nmiPending (s : State) (len : Addr) (h : Bool) : (advance s len h).nmiPending = s.nmiPending := rfl
@[simp] theorem advance_hold (s : State) (len : Addr) (h : Bool) : (advance s len h).hold = h := rfl
@[simp] theorem advance_mode (s : State) (len : Addr) (h : Bool) : (advance s len h).mode = s.mode := rfl
@[simp] theorem advance_freeCount (s : State) (len : Addr) (h : Bool) : (advance s len h).freeCount = s.freeCount := rfl
@[simp] theorem advance_sfrLog (s : State) (len : Addr) (h : Bool) : (advance s len h).sfrLog = s.sfrLog := rfl

@[simp] theorem jump_cfg (s : State) (a : Addr) : (jump s a).cfg = s.cfg := rfl
@[simp] theorem jump_mem (s : State) (a : Addr) : (jump s a).mem = s.mem := rfl
@[simp] theorem jump_pc (s : State) (a : Addr) : (jump s a).pc = a := rfl
@[simp] theorem jump_psw (s : State) (a : Addr) : (jump s a).psw = s.psw := rfl
@[simp] theorem jump_sp (s : State) (a : Addr) : (jump s a).sp = s.sp := rfl
@[simp] theorem jump_nmis (s : State) (a : Addr) : (jump s a).nmis = s.nmis := rfl
@[simp] theorem jump_nmiPending (s : State) (a : Addr) : (jump s a).nmiPending = s.nmiPending := rfl
@[simp] theorem jump_hold (s : State) (a : Addr) : (jump s a).hold = false := rfl
@[simp] theorem jump_mode (s : State) (a : Addr) : (jump s a).mode = s.mode := rfl
@[simp] theorem jump_freeCount (s : State) (a : Addr) : (jump s a).freeCount = s.freeCount := rfl
@[simp] theorem jump_sfrLog (s : State) (a : Addr) : (jump s a).sfrLog = s.sfrLog := rfl

@[simp] theorem putByte_cfg (s : State) (a : Addr) (v : Byte) : (putByte s a v).cfg = s.cfg := by
  unfold putByte; split_ifs <;> rfl
@[simp] theorem putByte_pc (s : State) (a : Addr) (v : Byte) : (putByte s a v).pc = s.pc := by
  unfold putByte; split_ifs <;> rfl
@[simp] theorem putByte_nmis (s : State) (a : Addr) (v : Byte) : (putByte s a v).nmis = s.nmis := by
  unfold putByte; split_ifs <;> rfl
@[simp] theorem putByte_nmiPending (s : State) (a : Addr) (v : Byte) : (putByte s a v).nmiPending = s.nmiPending := by
  unfold putByte; split_ifs <;> rfl
@[simp] theorem putByte_hold (s : State) (a : Addr) (v : Byte) : (putByte s a v).hold = s.hold := by
  unfold putByte; split_ifs <;> rfl
@[simp] theorem putByte_mode (s : State) (a : Addr) (v : Byte) : (putByte s a v).mode = s.mode := by
  unfold putByte; split_ifs <;> rfl
@[simp] theorem putByte_freeCount (s : State) (a : Addr) (v : Byte) : (putByte s a v).freeCount = s.freeCount := by
  unfold putByte; split_ifs <;> rfl
@[simp] theorem putByte_sfrLog (s : State) (a : Addr) (v : Byte) : (putByte s a v).sfrLog = s.sfrLog := by
  unfold putByte; split_ifs <;> rfl

@[simp] theorem setReg_cfg (s : State) (b : BitVec 2) (r : Reg8) (v : Byte) : (setReg s b r v).cfg = s.cfg :=
  putByte_cfg _ _ _
@[simp] theorem setReg_pc (s : State) (b : BitVec 2) (r : Reg8) (v : Byte) : (setReg s b r v).pc = s.pc :=
  putByte_pc _ _ _
@[simp] theorem setReg_nmis (s : State) (b : BitVec 2) (r : Reg8) (v : Byte) : (setReg s b r v).nmis = s.nmis :=
  putByte_nmis _ _ _
@[simp] theorem setReg_nmiPending (s : State) (b : BitVec 2) (r : Reg8) (v : Byte) : (setReg s b r v).nmiPending = s.nmiPending :=
  putByte_nmiPending _ _ _
@[simp] theorem setReg_hold (s : State) (b : BitVec 2) (r : Reg8) (v : Byte) : (setReg s b r v).hold = s.hold :=
  putByte_hold _ _ _
@[simp] theorem setReg_mode (s : State) (b : BitVec 2) (r : Reg8) (v : Byte) : (setReg s b r v).mode = s.mode :=
  putByte_mode _ _ _
@[simp] theorem setReg_freeCount (s : State) (b : BitVec 2) (r : Reg8) (v : Byte) : (setReg s b r v).freeCount = s.freeCount :=
  putByte_freeCount _ _ _
@[simp] theorem setReg_sfrLog (s : State) (b : BitVec 2) (r : Reg8) (v : Byte) : (setReg s b r v).sfrLog = s.sfrLog :=
  putByte_sfrLog _ _ _

@[simp] theorem setPair_cfg (s : State) (b : BitVec 2) (p : RegPair) (v : Word) : (setPair s b p v).cfg = s.cfg := by
  simp [setPair]
@[simp] theorem setPair_pc (s : State) (b : BitVec 2) (p : RegPair) (v : Word) : (setPair s b p v).pc = s.pc := by
  simp [setPair]
@[simp] theorem setPair_nmis (s : State) (b : BitVec 2) (p : RegPair) (v : Word) : (setPair s b p v).nmis = s.nmis := by
  simp [setPair]
@[simp] theorem setPair_nmiPending (s : State) (b : BitVec 2) (p : RegPair) (v : Word) : (setPair s b p v).nmiPending = s.nmiPending := by
  simp [setPair]
@[simp] theorem setPair_hold (s : State) (b : BitVec 2) (p : RegPair) (v : Word) : (setPair s b p v).hold = s.hold := by
  simp [setPair]
@[simp] theorem setPair_mode (s : State) (b : BitVec 2) (p : RegPair) (v : Word) : (setPair s b p v).mode = s.mode := by
  simp [setPair]
@[simp] theorem setPair_freeCount (s : State) (b : BitVec 2) (p : RegPair) (v : Word) : (setPair s b p v).freeCount = s.freeCount := by
  simp [setPair]
@[simp] theorem setPair_sfrLog (s : State) (b : BitVec 2) (p : RegPair) (v : Word) : (setPair s b p v).sfrLog = s.sfrLog := by
  simp [setPair]

/-! The calls that a device SFR sees. -/

@[simp] theorem noteRead_cfg (s : State) (a : Addr) : (noteRead s a).cfg = s.cfg := rfl
@[simp] theorem noteRead_mem (s : State) (a : Addr) : (noteRead s a).mem = s.mem := rfl
@[simp] theorem noteRead_pc (s : State) (a : Addr) : (noteRead s a).pc = s.pc := rfl
@[simp] theorem noteRead_psw (s : State) (a : Addr) : (noteRead s a).psw = s.psw := rfl
@[simp] theorem noteRead_sp (s : State) (a : Addr) : (noteRead s a).sp = s.sp := rfl
@[simp] theorem noteRead_nmis (s : State) (a : Addr) : (noteRead s a).nmis = s.nmis := rfl
@[simp] theorem noteRead_nmiPending (s : State) (a : Addr) : (noteRead s a).nmiPending = s.nmiPending := rfl
@[simp] theorem noteRead_hold (s : State) (a : Addr) : (noteRead s a).hold = s.hold := rfl
@[simp] theorem noteRead_mode (s : State) (a : Addr) : (noteRead s a).mode = s.mode := rfl
@[simp] theorem noteRead_freeCount (s : State) (a : Addr) : (noteRead s a).freeCount = s.freeCount := rfl

@[simp] theorem noteWrite_cfg (s : State) (a : Addr) (v : Byte) : (noteWrite s a v).cfg = s.cfg := rfl
@[simp] theorem noteWrite_mem (s : State) (a : Addr) (v : Byte) : (noteWrite s a v).mem = s.mem := rfl
@[simp] theorem noteWrite_pc (s : State) (a : Addr) (v : Byte) : (noteWrite s a v).pc = s.pc := rfl
@[simp] theorem noteWrite_psw (s : State) (a : Addr) (v : Byte) : (noteWrite s a v).psw = s.psw := rfl
@[simp] theorem noteWrite_sp (s : State) (a : Addr) (v : Byte) : (noteWrite s a v).sp = s.sp := rfl
@[simp] theorem noteWrite_nmis (s : State) (a : Addr) (v : Byte) : (noteWrite s a v).nmis = s.nmis := rfl
@[simp] theorem noteWrite_nmiPending (s : State) (a : Addr) (v : Byte) : (noteWrite s a v).nmiPending = s.nmiPending := rfl
@[simp] theorem noteWrite_hold (s : State) (a : Addr) (v : Byte) : (noteWrite s a v).hold = s.hold := rfl
@[simp] theorem noteWrite_mode (s : State) (a : Addr) (v : Byte) : (noteWrite s a v).mode = s.mode := rfl
@[simp] theorem noteWrite_freeCount (s : State) (a : Addr) (v : Byte) : (noteWrite s a v).freeCount = s.freeCount := rfl

end Sys2Proof.Machine
end

