-- ==== Sys2Proof/Laws/Ops.lean ====
section
/-! SUPPORT. What the shared operations over memory, registers and the stack can do, each said once. -/

namespace Sys2Proof.Machine

/-! Words and bytes. -/

theorem mkWord_bytes (w : Word) : mkWord (hiByte w) (loByte w) = w := by
  apply BitVec.eq_of_getLsbD_eq
  intro i hi
  simp only [mkWord, hiByte, loByte, BitVec.getLsbD_append, BitVec.getLsbD_extractLsb']
  by_cases h : i < 8
  · simp [h]
  · have : i - 8 < 8 := by omega
    simp [h, this, Nat.add_sub_cancel' (Nat.le_of_not_lt h)]

@[simp] theorem hiByte_mkWord (h l : Byte) : hiByte (mkWord h l) = h := by
  apply BitVec.eq_of_getLsbD_eq
  intro i hi
  simp only [mkWord, hiByte, BitVec.getLsbD_append, BitVec.getLsbD_extractLsb']
  simp [hi]

@[simp] theorem loByte_mkWord (h l : Byte) : loByte (mkWord h l) = l := by
  apply BitVec.eq_of_getLsbD_eq
  intro i hi
  simp only [mkWord, loByte, BitVec.getLsbD_append, BitVec.getLsbD_extractLsb']
  simp [hi]

/-! Reading one byte after an update. -/

@[simp] theorem pswAddr_ne_spLow : (pswAddr = spLowAddr) = False := by simp [pswAddr, spLowAddr]
@[simp] theorem pswAddr_ne_spHigh : (pswAddr = spHighAddr) = False := by simp [pswAddr, spHighAddr]
@[simp] theorem spLow_ne_pswAddr : (spLowAddr = pswAddr) = False := by simp [pswAddr, spLowAddr]
@[simp] theorem spHigh_ne_pswAddr : (spHighAddr = pswAddr) = False := by simp [pswAddr, spHighAddr]
@[simp] theorem spLow_ne_spHigh : (spLowAddr = spHighAddr) = False := by simp [spLowAddr, spHighAddr]
@[simp] theorem spHigh_ne_spLow : (spHighAddr = spLowAddr) = False := by simp [spLowAddr, spHighAddr]

/-- A byte read depends on memory, PSW and SP only. -/
theorem byteAt_congr {s t : State} (hm : t.mem = s.mem) (hp : t.psw = s.psw) (hs : t.sp = s.sp) (a : Addr) :
    byteAt t a = byteAt s a := by simp only [byteAt, hm, hp, hs]

/-- Reading after a store gives the byte stored there, and every other byte as it was (20_memory R72, R73). -/
theorem byteAt_putByte (s : State) (a : Addr) (v : Byte) (b : Addr) :
    byteAt (putByte s a v) b = if a = b then stored a v else byteAt s b := by
  by_cases hab : a = b
  · subst hab
    simp only [byteAt, putByte, setPsw, withPsw, withSp, stored, if_true]
    split_ifs <;> simp_all [read_write]
  · simp only [byteAt, putByte, setPsw, withPsw, withSp, if_neg hab]
    have : ∀ m : Memory, (m.write a.toNat v).read b.toNat = m.read b.toNat := by
      intro m
      rw [read_write, if_neg]
      intro h
      exact hab (BitVec.eq_of_toNat_eq h.symm)
    split_ifs <;> simp_all

@[simp] theorem byteAt_noteRead (s : State) (b a : Addr) : byteAt (noteRead s b) a = byteAt s a := rfl

@[simp] theorem byteAt_noteWrite (s : State) (b : Addr) (v : Byte) (a : Addr) :
    byteAt (noteWrite s b v) a = byteAt s a := rfl

@[simp] theorem byteAt_advance (s : State) (len : Addr) (h : Bool) (a : Addr) :
    byteAt (advance s len h) a = byteAt s a := rfl

@[simp] theorem byteAt_jump (s : State) (t : Addr) (a : Addr) : byteAt (jump s t) a = byteAt s a := rfl

/-- Only PSW's byte sees a PSW that is set without a mask. -/
theorem byteAt_withPsw (s : State) (v : Byte) (a : Addr) :
    byteAt (withPsw s v) a = if pswAddr = a then v else byteAt s a := by
  simp only [byteAt, withPsw, eq_comm (a := a)]
  split_ifs <;> rfl

theorem byteAt_setFlags (s : State) (u : FlagUpdate) (a : Addr) :
    byteAt (setFlags s u) a = if pswAddr = a then flagsInto s.psw u else byteAt s a := byteAt_withPsw s _ a

theorem byteAt_setPsw (s : State) (v : Byte) (a : Addr) :
    byteAt (setPsw s v) a = if pswAddr = a then v &&& 0xFB else byteAt s a := byteAt_withPsw s _ a

/-- Only SP's two bytes see a new SP. -/
theorem byteAt_withSp (s : State) (w : Word) (a : Addr) :
    byteAt (withSp s w) a =
      if spHighAddr = a then hiByte w else if spLowAddr = a then loByte w else byteAt s a := by
  by_cases h1 : spHighAddr = a
  · subst h1; simp [byteAt, withSp]
  · by_cases h2 : spLowAddr = a
    · subst h2; simp [byteAt, withSp]
    · simp [byteAt, withSp, Ne.symm h1, Ne.symm h2, h1, h2]

@[simp] theorem byteAt_psw (s : State) : byteAt s pswAddr = s.psw := by simp [byteAt]

/-! General registers. -/

theorem regAddr_range (b : BitVec 2) (r : Reg8) : 0xFEE0 ≤ (regAddr b r).toNat ∧ (regAddr b r).toNat ≤ 0xFEFF := by
  revert b; cases r <;> decide

theorem regAddr_inj : ∀ (b b' : BitVec 2) (r r' : Reg8), regAddr b r = regAddr b' r' → b = b' ∧ r = r' := by
  intro b b' r r'
  revert b b'
  cases r <;> cases r' <;> decide

@[simp] theorem regAddr_eq_regAddr (b : BitVec 2) (r r' : Reg8) : (regAddr b r = regAddr b r') = (r = r') := by
  apply propext
  exact ⟨fun h => (regAddr_inj _ _ _ _ h).2, fun h => h ▸ rfl⟩

/-- An address of the internal high-speed RAM is none of PSW's and SP's. -/
theorem ne_control_of_le {a : Addr} (h : a.toNat ≤ 0xFEFF) :
    a ≠ pswAddr ∧ a ≠ spLowAddr ∧ a ≠ spHighAddr := by
  refine ⟨?_, ?_, ?_⟩ <;> (rintro rfl; revert h; decide)

@[simp] theorem regAddr_ne_psw (b : BitVec 2) (r : Reg8) : (regAddr b r = pswAddr) = False :=
  eq_false (ne_control_of_le (regAddr_range b r).2).1
@[simp] theorem regAddr_ne_spLow (b : BitVec 2) (r : Reg8) : (regAddr b r = spLowAddr) = False :=
  eq_false (ne_control_of_le (regAddr_range b r).2).2.1
@[simp] theorem regAddr_ne_spHigh (b : BitVec 2) (r : Reg8) : (regAddr b r = spHighAddr) = False :=
  eq_false (ne_control_of_le (regAddr_range b r).2).2.2

/-- A store outside PSW leaves PSW. -/
theorem putByte_psw_eq (s : State) (a : Addr) (v : Byte) : (putByte s a v).psw = pswAfterStore s a v := by
  unfold putByte pswAfterStore
  split_ifs <;> rfl

theorem putByte_sp_of_le {s : State} {a : Addr} {v : Byte} (h : a.toNat ≤ 0xFEFF) : (putByte s a v).sp = s.sp := by
  obtain ⟨h1, h2, h3⟩ := ne_control_of_le h
  simp [putByte, h1, h2, h3]

theorem putByte_psw_of_le {s : State} {a : Addr} {v : Byte} (h : a.toNat ≤ 0xFEFF) : (putByte s a v).psw = s.psw := by
  rw [putByte_psw_eq, pswAfterStore, if_neg (ne_control_of_le h).1]

theorem stored_of_le {a : Addr} (h : a.toNat ≤ 0xFEFF) (v : Byte) : stored a v = v := by
  rw [stored, if_neg (ne_control_of_le h).1]

@[simp] theorem setReg_psw (s : State) (b : BitVec 2) (r : Reg8) (v : Byte) : (setReg s b r v).psw = s.psw :=
  putByte_psw_of_le (regAddr_range b r).2

@[simp] theorem setReg_sp (s : State) (b : BitVec 2) (r : Reg8) (v : Byte) : (setReg s b r v).sp = s.sp :=
  putByte_sp_of_le (regAddr_range b r).2

@[simp] theorem setPair_psw (s : State) (b : BitVec 2) (p : RegPair) (v : Word) : (setPair s b p v).psw = s.psw := by
  simp [setPair]

@[simp] theorem setPair_sp (s : State) (b : BitVec 2) (p : RegPair) (v : Word) : (setPair s b p v).sp = s.sp := by
  simp [setPair]

theorem byteAt_setReg (s : State) (b : BitVec 2) (r : Reg8) (v : Byte) (a : Addr) :
    byteAt (setReg s b r v) a = if regAddr b r = a then v else byteAt s a := by
  rw [setReg, byteAt_putByte, stored_of_le (regAddr_range b r).2]

theorem byteAt_setPair (s : State) (b : BitVec 2) (p : RegPair) (v : Word) (a : Addr) :
    byteAt (setPair s b p v) a =
      if regAddr b p.highReg = a then hiByte v else if regAddr b p.lowReg = a then loByte v else byteAt s a := by
  simp only [setPair, byteAt_setReg]

/-! A call to a device SFR changes no register. -/

@[simp] theorem reg_noteRead (s : State) (a : Addr) : reg (noteRead s a) = reg s := rfl
@[simp] theorem reg_noteWrite (s : State) (a : Addr) (v : Byte) : reg (noteWrite s a v) = reg s := rfl
@[simp] theorem bank_noteRead (s : State) (a : Addr) : bank (noteRead s a) = bank s := rfl
@[simp] theorem bank_noteWrite (s : State) (a : Addr) (v : Byte) : bank (noteWrite s a v) = bank s := rfl
@[simp] theorem cy_noteRead (s : State) (a : Addr) : cy (noteRead s a) = cy s := rfl
@[simp] theorem cy_noteWrite (s : State) (a : Addr) (v : Byte) : cy (noteWrite s a v) = cy s := rfl
@[simp] theorem pswAfterStore_noteRead (s : State) (a : Addr) : pswAfterStore (noteRead s a) = pswAfterStore s := rfl
@[simp] theorem pswAfterStore_noteWrite (s : State) (a : Addr) (v : Byte) :
    pswAfterStore (noteWrite s a v) = pswAfterStore s := rfl

/-! Which accesses can be made. -/

@[simp] theorem checkRead_noteRead (s : State) (a : Addr) : checkRead (noteRead s a) = checkRead s := rfl
@[simp] theorem checkWrite_noteRead (s : State) (a : Addr) : checkWrite (noteRead s a) = checkWrite s := rfl
@[simp] theorem checkWrite_noteWrite (s : State) (a : Addr) (v : Byte) : checkWrite (noteWrite s a v) = checkWrite s := rfl

theorem checkRead_congr {s t : State} (hc : t.cfg = s.cfg) (hp : t.pc = s.pc) (u : AccessUnit) (a : Addr) :
    checkRead t u a = checkRead s u a := by simp only [checkRead, hc, hp]

theorem checkWrite_congr {s t : State} (hc : t.cfg = s.cfg) (hp : t.pc = s.pc) (u : AccessUnit) (a : Addr) :
    checkWrite t u a = checkWrite s u a := by simp only [checkWrite, hc, hp]

@[simp] theorem checkWrite_putByte (s : State) (a : Addr) (v : Byte) (u : AccessUnit) (b : Addr) :
    checkWrite (putByte s a v) u b = checkWrite s u b := checkWrite_congr (by simp) (by simp) u b

/-- The internal high-speed RAM, the general registers among it, can always be read and written. -/
theorem accessible_of_ihram {s : State} {a : Addr} (u : AccessUnit) (h : inIhram s.cfg a = true) :
    Readable s u a ∧ Writable s u a := by
  have hle : a.toNat ≤ 0xFEFF := by
    simp only [inIhram, Bool.and_eq_true, decide_eq_true_eq] at h
    exact h.2
  obtain ⟨h1, h2, h3⟩ := ne_control_of_le hle
  have ha : inSfrArea a = false := by simp [inSfrArea]; omega
  simp [Readable, Writable, checkRead, checkWrite, isControl, h1, h2, h3, ha, h]

theorem inIhram_regAddr (c : Config) (b : BitVec 2) (r : Reg8) : inIhram c (regAddr b r) = true := by
  have := regAddr_range b r
  simp only [inIhram, Bool.and_eq_true, Bool.or_eq_true, decide_eq_true_eq]
  omega

theorem le_of_inIhram {c : Config} {a : Addr} (h : inIhram c a = true) : a.toNat ≤ 0xFEFF := by
  simp only [inIhram, Bool.and_eq_true, decide_eq_true_eq] at h
  exact h.2

theorem readable_psw (s : State) (u : AccessUnit) : Readable s u pswAddr := by
  simp [Readable, checkRead, isControl]

theorem writable_psw (s : State) (u : AccessUnit) : Writable s u pswAddr := by
  simp [Writable, checkWrite, isControl]

/-! Reads and writes, and the calls a device SFR sees. -/

/-- What is no device SFR reads as its byte, and its reads and writes are seen by none. -/
theorem plain_of_not_device {s : State} {a : Addr} (h : isDevice s.cfg a = false) :
    valueAt s a = byteAt s a ∧ noteRead s a = s ∧ ∀ v, noteWrite s a v = s := by
  simp [valueAt, noteRead, noteWrite, h]

theorem not_device_of_le {c : Config} {a : Addr} (h : inSfrArea a = false) : isDevice c a = false := by
  simp [isDevice, h]

theorem not_device_of_control {c : Config} {a : Addr} (h : isControl a = true) : isDevice c a = false := by
  simp [isDevice, h]

theorem not_sfrArea_of_le {a : Addr} (h : a.toNat ≤ 0xFEFF) : inSfrArea a = false := by
  simp only [inSfrArea, decide_eq_false_iff_not]; omega

@[simp] theorem isDevice_regAddr (c : Config) (b : BitVec 2) (r : Reg8) : isDevice c (regAddr b r) = false :=
  not_device_of_le (not_sfrArea_of_le (regAddr_range b r).2)

@[simp] theorem isDevice_psw (c : Config) : isDevice c pswAddr = false := not_device_of_control (by simp [isControl])

/-- A call to a device SFR is seen whatever else is stored. -/
theorem noteWrite_putByte (s : State) (a : Addr) (v : Byte) (b : Addr) (w : Byte) :
    noteWrite (putByte s b w) a v = putByte (noteWrite s a v) b w := by
  unfold putByte
  split_ifs <;> rfl

theorem load8_of_readable {s : State} {u : AccessUnit} {a : Addr} (h : Readable s u a) :
    load8 s u a = .ok (valueAt s a, noteRead s a) := by
  unfold Readable at h
  simp [load8, h, bind, Except.bind, pure, Except.pure]

theorem store8_of_writable {s : State} {u : AccessUnit} {a : Addr} (v : Byte) (h : Writable s u a) :
    store8 s u a v = .ok (putByte (noteWrite s a v) a v) := by
  unfold Writable at h
  simp [store8, h, bind, Except.bind, pure, Except.pure]

theorem load16_of_readable {s : State} {a : Addr} (h : Readable s .word a) (h' : Readable s .word (a + 1)) :
    load16 s a = .ok (wordValueAt s a, noteReadWord s a) := by
  have h'' : Readable (noteRead s a) .word (a + 1) := h'
  simp only [load16, load8_of_readable h, load8_of_readable h'', bind, Except.bind, pure, Except.pure, wordValueAt,
    noteReadWord, mkWord]

theorem store16_of_writable {s : State} {a : Addr} (v : Word) (h : Writable s .word a) (h' : Writable s .word (a + 1)) :
    store16 s a v = .ok (putByte (putByte (noteWriteWord s a v) a (loByte v)) (a + 1) (hiByte v)) := by
  have : Writable (putByte (noteWrite s a (loByte v)) a (loByte v)) .word (a + 1) := by
    unfold Writable; rw [checkWrite_putByte]; exact h'
  simp only [store16, store8_of_writable _ h, store8_of_writable _ this, bind, Except.bind, noteWrite_putByte,
    noteWriteWord]

/-- A word without a device SFR is plain. -/
theorem plainWord_of_not_device {s : State} {a : Addr} (h : isDevice s.cfg a = false)
    (h' : isDevice s.cfg (a + 1) = false) :
    wordValueAt s a = wordAt s a ∧ noteReadWord s a = s ∧ ∀ v, noteWriteWord s a v = s := by
  obtain ⟨h1, h2, h3⟩ := plain_of_not_device h
  obtain ⟨g1, g2, g3⟩ := plain_of_not_device h'
  refine ⟨?_, ?_, fun v => ?_⟩
  · rw [wordValueAt, h2, g1, h1, wordAt]
  · rw [noteReadWord, h2, g2]
  · rw [noteWriteWord, h3, g3]

theorem byteOperand_of_named {s : State} {m : MemOperand} (h : Named m) : byteOperand s m = .ok (effAddr s m) := by
  cases m with
  | sfr o =>
    have : sfrOffsetInvalid o = false := by
      simp only [Named] at h
      simp [sfrOffsetInvalid]; omega
    simp [byteOperand, this]
  | _ => rfl

theorem wordOperand_of_named {s : State} {m : MemOperand} (h : Named m) (he : (effAddr s m).getLsbD 0 = false) :
    wordOperand s m = .ok (effAddr s m) := by
  simp only [wordOperand, byteOperand_of_named h, evenAddress, he, bind, Except.bind, Bool.false_eq_true, if_false]

theorem loadOperand_of_readable {s : State} {u : AccessUnit} {m : MemOperand} (h : Named m)
    (hr : Readable s u (effAddr s m)) :
    loadOperand s u m = .ok (valueAt s (effAddr s m), noteRead s (effAddr s m)) := by
  simp [loadOperand, byteOperand_of_named h, load8_of_readable hr, bind, Except.bind]

/-! The stack. -/

theorem push8_of_room {s : State} (v : Byte) (h : inIhram s.cfg (s.sp - 1) = true) :
    push8 s v = .ok (putByte (withSp s (s.sp - 1)) (s.sp - 1) v) := by
  simp only [push8, h, if_true]

theorem pop8_of_has {s : State} (h : inIhram s.cfg s.sp = true) :
    pop8 s = .ok (byteAt s s.sp, withSp s (s.sp + 1)) := by
  simp only [pop8, h, if_true]

/-! The overlay of stores. -/

@[simp] theorem overlay_nil (f : Addr → Byte) (a : Addr) : overlay [] f a = f a := rfl

theorem overlay_append (ws vs : List (Addr × Byte)) (f : Addr → Byte) (a : Addr) :
    overlay (ws ++ vs) f a = overlay vs (overlay ws f) a := by
  simp [overlay, List.foldl_append]

theorem overlay_concat (ws : List (Addr × Byte)) (w : Addr × Byte) (f : Addr → Byte) (a : Addr) :
    overlay (ws ++ [w]) f a = if w.1 = a then w.2 else overlay ws f a := by
  simp [overlay, List.foldl_append]

end Sys2Proof.Machine
end

