-- ==== Sys2Proof/Laws/Families.lean ====
section
/-! SUPPORT. The next state of every shared operation of the instruction families, where its accesses can be made, and of
entering and leaving a handler. -/

namespace Sys2Proof.Machine

variable {s : State} {m : MemOperand}

/-- A read changes nothing that decides what can be written. -/
theorem writable_noteRead {u : AccessUnit} {a b : Addr} (h : Writable s u a) : Writable (noteRead s b) u a := h

/-! Data transfer. -/

theorem movToA_next (len : Addr) (h : Named m) (hr : Readable s .byte (effAddr s m)) :
    movToA m len s =
      .next (advance (setReg (noteRead s (effAddr s m)) (bank s) .a (valueAt s (effAddr s m))) len) := by
  simp only [movToA, loadOperand_of_readable h hr]; rfl

theorem movImm_next (v : Byte) (len : Addr) (hold : Bool) (h : Named m) (hw : Writable s .byte (effAddr s m)) :
    movImm m v len hold s = .next (advance (putByte (noteWrite s (effAddr s m) v) (effAddr s m) v) len hold) := by
  simp only [movImm, byteOperand_of_named h, bind, Except.bind, store8_of_writable v hw]; rfl

theorem movFromA_next (len : Addr) (hold : Bool) (h : Named m) (hw : Writable s .byte (effAddr s m)) :
    let v := reg s (bank s) .a
    movFromA m len hold s = .next (advance (putByte (noteWrite s (effAddr s m) v) (effAddr s m) v) len hold) := by
  simp only [movFromA, byteOperand_of_named h, bind, Except.bind, store8_of_writable _ hw]; rfl

theorem xchMem_next (len : Addr) (h : Named m) (hr : Readable s .byte (effAddr s m))
    (hw : Writable s .byte (effAddr s m)) :
    let v := reg s (bank s) .a
    xchMem m len s = .next (advance (setReg (putByte (noteUpdate s (effAddr s m) v) (effAddr s m) v) (bank s) .a
      (valueAt s (effAddr s m))) len) := by
  simp only [xchMem, byteOperand_of_named h, bind, Except.bind, load8_of_readable hr,
    store8_of_writable _ (writable_noteRead hw)]
  rfl

theorem movwToAx_next (len : Addr) (h : Named m) (hr : ReadableWord s (effAddr s m)) :
    movwToAx m len s = .next (advance
      (setPair (noteReadWord s (effAddr s m)) (bank s) .ax (wordValueAt s (effAddr s m))) len) := by
  simp only [movwToAx, wordOperand_of_named h hr.1, bind, Except.bind, load16_of_readable hr.2.1 hr.2.2]; rfl

theorem movwStore_next (v : Word) (len : Addr) (h : Named m) (hw : WritableWord s (effAddr s m)) :
    movwStore m v len s =
      .next (advance (putByte (putByte (noteWriteWord s (effAddr s m) v) (effAddr s m) (loByte v))
        (effAddr s m + 1) (hiByte v)) len) := by
  simp only [movwStore, wordOperand_of_named h hw.1, bind, Except.bind, store16_of_writable v hw.2.1 hw.2.2]; rfl

/-! Arithmetic. -/

theorem setFlags_eq (s : State) (u : FlagUpdate) : setFlags s u = withPsw s (flagsInto s.psw u) := rfl

theorem aluOnReg_next (op : AluOp) (r : Reg8) (src : Byte) (len : Addr) (s : State) :
    aluOnReg op r src len s = .next (advance
      (withPsw (if op = .cmp then s else setReg s (bank s) r (aluResult op (reg s (bank s) r) src (cy s)))
        (aluPsw op s.psw (reg s (bank s) r) src (cy s))) len) := by
  simp only [aluOnReg, setFlags_eq, aluEval_result, flagsInto_aluEval]
  cases op <;> simp [aluStores]

theorem aluFromMem_next (op : AluOp) (len : Addr) (h : Named m) (hr : Readable s .byte (effAddr s m)) :
    aluFromMem op m len s = aluOnReg op .a (valueAt s (effAddr s m)) len (noteRead s (effAddr s m)) := by
  simp only [aluFromMem, loadOperand_of_readable h hr]; rfl

theorem aluOnMem_next (op : AluOp) (src : Byte) (len : Addr) (h : Named m) (hr : Readable s .byte (effAddr s m))
    (hw : op = .cmp ∨ Writable s .byte (effAddr s m)) :
    let a := effAddr s m
    let v := aluResult op (valueAt s a) src (cy s)
    aluOnMem op m src len s = .next (advance
      (withPsw (if op = .cmp then noteRead s a else putByte (noteUpdate s a v) a v)
        (aluPsw op (if op = .cmp then s.psw else pswAfterStore s a v) (valueAt s a) src (cy s))) len) := by
  simp only [aluOnMem, byteOperand_of_named h, bind, Except.bind, load8_of_readable hr, aluEval_result, setFlags_eq,
    flagsInto_aluEval]
  rcases hw with rfl | hw
  · simp [aluStores, outcome, pure, Except.pure]
  · cases op <;> simp [aluStores, outcome, pure, Except.pure, store8_of_writable _ (writable_noteRead hw), putByte_psw_eq,
      noteUpdate, pswAfterStore]

/-- The bytes after a 16-bit operation; `freeCount` has no address. -/
theorem byteAt_aluW (e : Word × FlagUpdate) (stores : Bool) (len : Addr) (s : State) (a : Addr) :
    byteAt (aluW e stores len s) a =
      byteAt (withPsw (if stores then setPair s (bank s) .ax e.1 else s) (flagsInto s.psw e.2)) a := by
  apply byteAt_congr <;> cases stores <;> simp [aluW]

theorem stepMem_next (f : Byte → Byte × FlagUpdate) (len : Addr) (h : Named m) (hr : Readable s .byte (effAddr s m))
    (hw : Writable s .byte (effAddr s m)) :
    let e := f (valueAt s (effAddr s m))
    stepMem f m len s = .next (advance
      (setFlags (putByte (noteUpdate s (effAddr s m) e.1) (effAddr s m) e.1) e.2) len) := by
  simp only [stepMem, byteOperand_of_named h, bind, Except.bind, load8_of_readable hr,
    store8_of_writable _ (writable_noteRead hw)]
  rfl

theorem rotateDigits_next (f : Byte → Byte → Byte × Byte) (len : Addr) (ha : inSfrArea (effAddr s .hl) = false)
    (hr : Readable s .byte (effAddr s .hl)) (hw : Writable s .byte (effAddr s .hl)) :
    let e := f (reg s (bank s) .a) (byteAt s (effAddr s .hl))
    rotateDigits f len s = .next (advance (setReg (putByte s (effAddr s .hl) e.1) (bank s) .a e.2) len) := by
  obtain ⟨h1, h2, h3⟩ := plain_of_not_device (s := s) (not_device_of_le ha)
  simp only [rotateDigits, ha, Bool.false_eq_true, if_false, bind, Except.bind, pure, Except.pure,
    load8_of_readable hr, h1, h2, store8_of_writable _ hw, h3]
  rfl

/-! Bits. -/

/-- The model's operand for a place of 46 R270. -/
def BitPlace.operand : BitPlace → BitOperand
  | .saddr o => .mem (.saddr o)
  | .sfr o => .mem (.sfr o)
  | .a => .a
  | .psw => .psw
  | .hl => .mem .hl

theorem bitByte_of_readable {x : BitPlace} (h : x.Named) (hr : Readable s .bit (x.addr s)) :
    bitByte s x.operand = .ok (valueAt s (x.addr s), noteRead s (x.addr s)) := by
  cases x with
  | saddr o => exact loadOperand_of_readable (m := .saddr o) trivial hr
  | sfr o => exact loadOperand_of_readable (m := .sfr o) h hr
  | hl => exact loadOperand_of_readable (m := .hl) trivial hr
  | a =>
    obtain ⟨h1, h2, -⟩ := plain_of_not_device (isDevice_regAddr s.cfg (bank s) .a)
    simp only [BitPlace.operand, bitByte, BitPlace.addr, h1, h2]
    rfl
  | psw =>
    obtain ⟨h1, h2, -⟩ := plain_of_not_device (isDevice_psw s.cfg)
    simp only [BitPlace.operand, bitByte, BitPlace.addr, h1, h2, byteAt_psw]

theorem putBitByte_of_writable {x : BitPlace} (v : Byte) (h : x.Named) (hw : Writable s .bit (x.addr s)) :
    putBitByte s x.operand v = .ok (putByte (noteWrite s (x.addr s) v) (x.addr s) v) := by
  cases x with
  | saddr o =>
    simp only [BitPlace.operand, putBitByte, byteOperand_of_named (m := .saddr o) trivial, bind, Except.bind]
    exact store8_of_writable v hw
  | sfr o =>
    simp only [BitPlace.operand, putBitByte, byteOperand_of_named (m := .sfr o) h, bind, Except.bind]
    exact store8_of_writable v hw
  | hl =>
    simp only [BitPlace.operand, putBitByte, byteOperand_of_named (m := .hl) trivial, bind, Except.bind]
    exact store8_of_writable v hw
  | a =>
    obtain ⟨-, -, h3⟩ := plain_of_not_device (isDevice_regAddr s.cfg (bank s) .a)
    simp only [BitPlace.operand, putBitByte, BitPlace.addr, h3]
    rfl
  | psw =>
    obtain ⟨-, -, h3⟩ := plain_of_not_device (isDevice_psw s.cfg)
    simp only [BitPlace.operand, putBitByte, BitPlace.addr, h3, putByte, if_true]

/-- The place of a bit does not depend on what the device SFRs have seen. -/
@[simp] theorem addr_noteRead (x : BitPlace) (a : Addr) : x.addr (noteRead s a) = x.addr s := by cases x <;> rfl

theorem writable_bit_noteRead {x : BitPlace} {a : Addr} (h : Writable s .bit (x.addr s)) :
    Writable (noteRead s a) .bit (x.addr (noteRead s a)) := by
  rw [addr_noteRead]; exact h

theorem bitToCy_next (f : Bool → Bool → Bool) {x : BitPlace} (n : BitVec 3) (len : Addr) (h : x.Named)
    (hr : Readable s .bit (x.addr s)) :
    bitToCy f x.operand n len s =
      .next (advance (setFlags (noteRead s (x.addr s)) { cy := some (f (cy s) (bitOf (valueAt s (x.addr s)) n)) }) len) := by
  simp only [bitToCy, readBit, bitByte_of_readable h hr]; rfl

theorem bitFromValue_next {x : BitPlace} (n : BitVec 3) (v : Bool) (len : Addr) (hold : Bool) (h : x.Named)
    (hr : Readable s .bit (x.addr s)) (hw : Writable s .bit (x.addr s)) :
    let t := withBit (valueAt s (x.addr s)) n v
    bitFromValue x.operand n v len hold s =
      .next (advance (putByte (noteUpdate s (x.addr s) t) (x.addr s) t) len hold) := by
  simp only [bitFromValue, writeBit, bitByte_of_readable h hr, bind, Except.bind,
    putBitByte_of_writable _ h (writable_bit_noteRead hw), addr_noteRead]
  rfl

theorem branchOnBit_next (v : Bool) {x : BitPlace} (n : BitVec 3) (len : Addr) (j : Byte) (h : x.Named)
    (hr : Readable s .bit (x.addr s)) :
    branchOnBit v x.operand n len j s =
      .next (branchIf (bitOf (valueAt s (x.addr s)) n == v) len j (noteRead s (x.addr s))) := by
  simp only [branchOnBit, readBit, bitByte_of_readable h hr]; rfl

theorem branchAndClear_next_one {x : BitPlace} {n : BitVec 3} (len : Addr) (j : Byte) (h : x.Named)
    (hr : Readable s .bit (x.addr s)) (hw : Writable s .bit (x.addr s)) (hb : bitOf (valueAt s (x.addr s)) n = true) :
    let t := withBit (valueAt s (x.addr s)) n false
    branchAndClear x.operand n len j s =
      .next (branchIf true len j (putByte (noteUpdate s (x.addr s) t) (x.addr s) t)) := by
  simp only [branchAndClear, bitByte_of_readable h hr, bind, Except.bind, hb, if_true,
    putBitByte_of_writable _ h (writable_bit_noteRead hw), addr_noteRead]
  rfl

theorem branchAndClear_next_zero {x : BitPlace} {n : BitVec 3} (len : Addr) (j : Byte) (h : x.Named)
    (hr : Readable s .bit (x.addr s)) (hb : bitOf (valueAt s (x.addr s)) n = false) :
    branchAndClear x.operand n len j s = .next (branchIf false len j (noteRead s (x.addr s))) := by
  simp only [branchAndClear, bitByte_of_readable h hr, bind, Except.bind, hb, Bool.false_eq_true, if_false]
  rfl

theorem countMem_next (len : Addr) (j : Byte) (h : Named m) (hr : Readable s .byte (effAddr s m))
    (hw : Writable s .byte (effAddr s m)) :
    let v := valueAt s (effAddr s m) - 1
    countMem m len j s = .next (branchIf (v != 0) len j (putByte (noteUpdate s (effAddr s m) v) (effAddr s m) v)) := by
  simp only [countMem, byteOperand_of_named h, bind, Except.bind, load8_of_readable hr,
    store8_of_writable _ (writable_noteRead hw)]
  rfl

/-! The stack. -/

/-- The state after `n` pushes of the given bytes, the first at the highest address. -/
def pushed (s : State) : List Byte → State
  | [] => s
  | v :: vs => pushed (putByte (withSp s (s.sp - 1)) (s.sp - 1) v) vs

theorem push8_pushed {v : Byte} (h : StackRoom s 1) : push8 s v = .ok (pushed s [v]) :=
  push8_of_room v (h 0 (by decide))

theorem pushed_sp {v : Byte} (h : inIhram s.cfg (s.sp - 1) = true) :
    (putByte (withSp s (s.sp - 1)) (s.sp - 1) v).sp = s.sp - 1 := putByte_sp_of_le (le_of_inIhram h)

/-- After one push there is room for the others. -/
theorem stackRoom_pushed {v : Byte} {n : Nat} (h : StackRoom s (n + 1)) :
    StackRoom (pushed s [v]) n := by
  have h0 := h 0 (by omega)
  intro k hk
  have hk' := h (k + 1) (by omega)
  simp only [pushed, putByte_cfg, pushed_sp h0]
  have : s.sp - 1 - BitVec.ofNat 16 (k + 1) = s.sp - BitVec.ofNat 16 (k + 1 + 1) := by
    apply BitVec.eq_of_toNat_eq
    simp only [BitVec.ofNat_eq_ofNat, BitVec.toNat_sub, BitVec.toNat_ofNat]
    omega
  rw [this]
  exact hk'

theorem push16_pushed {w : Word} (h : StackRoom s 2) : push16 s w = .ok (pushed s [hiByte w, loByte w]) := by
  simp only [push16, push8_pushed (fun k hk => h k (by omega)), bind, Except.bind]
  exact push8_pushed (stackRoom_pushed h)

end Sys2Proof.Machine
end

