-- ==== Sys2Proof/Laws/Inversion.lean ====
section
/-! SUPPORT. What follows when a shared operation answers a next state: which state that is, up to the updates that keep
the hidden state and the invariant. Later proofs cite these and unfold no operation. -/

namespace Sys2Proof.Machine

/-- `t` differs from `s` in memory, PSW, SP, `hold`, the free counter and what the device SFRs have seen at most, and the
invariant is kept. -/
def Kept (s t : State) : Prop :=
  t.cfg = s.cfg ∧ t.pc = s.pc ∧ t.nmis = s.nmis ∧ t.nmiPending = s.nmiPending ∧ t.mode = s.mode ∧ (StateInv s → StateInv t)

theorem Kept.refl (s : State) : Kept s s := ⟨rfl, rfl, rfl, rfl, rfl, id⟩

theorem Kept.trans {s t u : State} (h : Kept s t) (g : Kept t u) : Kept s u :=
  ⟨g.1.trans h.1, g.2.1.trans h.2.1, g.2.2.1.trans h.2.2.1, g.2.2.2.1.trans h.2.2.2.1,
    g.2.2.2.2.1.trans h.2.2.2.2.1, fun i => g.2.2.2.2.2 (h.2.2.2.2.2 i)⟩

/-! The invariant under the updates of a state. -/

theorem bit2_masked (v : Byte) : bitOf (v &&& 0xFB) 2 = false := by simp [bitOf]

theorem bit2_writeFlag (p : Byte) (n : BitVec 3) (u : Option Bool) (hn : n ≠ 2) :
    bitOf (writeFlag p n u) 2 = bitOf p 2 := by
  cases u
  · rfl
  · simp only [writeFlag, bitOf_withBit, if_neg (Ne.symm hn)]

theorem bit2_flagsInto (p : Byte) (u : FlagUpdate) : bitOf (flagsInto p u) 2 = bitOf p 2 := by
  simp only [flagsInto]
  rw [bit2_writeFlag _ _ _ (by decide), bit2_writeFlag _ _ _ (by decide), bit2_writeFlag _ _ _ (by decide)]

/-- PSW and SP have registers of their own; every other address belongs to memory. -/
theorem memoryAddress_of_ne {a : Addr} (h1 : a ≠ pswAddr) (h2 : a ≠ spLowAddr) (h3 : a ≠ spHighAddr) :
    memoryAddress a.toNat = true := by
  have e1 : a.toNat ≠ 0xFF1E := fun h => h1 (BitVec.eq_of_toNat_eq h)
  have e2 : a.toNat ≠ 0xFF1C := fun h => h2 (BitVec.eq_of_toNat_eq h)
  have e3 : a.toNat ≠ 0xFF1D := fun h => h3 (BitVec.eq_of_toNat_eq h)
  have := a.isLt
  simp only [memoryAddress, Bool.and_eq_true, decide_eq_true_eq, Bool.not_eq_true', Bool.and_eq_false_iff,
    decide_eq_false_iff_not]
  omega

theorem inv_putByte {s : State} (a : Addr) (v : Byte) (h : StateInv s) : StateInv (putByte s a v) := by
  obtain ⟨h1, h2, h3⟩ := h
  unfold putByte
  split_ifs with e1 e2 e3
  · exact ⟨h1, h2, bit2_masked v⟩
  · exact ⟨h1, h2, h3⟩
  · exact ⟨h1, h2, h3⟩
  · exact ⟨wf_write _ _ h1, keysIn_write _ (memoryAddress_of_ne e1 e2 e3) h2, h3⟩

theorem kept_putByte (s : State) (a : Addr) (v : Byte) : Kept s (putByte s a v) :=
  ⟨by simp, by simp, by simp, by simp, by simp, inv_putByte a v⟩

theorem kept_noteRead (s : State) (a : Addr) : Kept s (noteRead s a) := ⟨rfl, rfl, rfl, rfl, rfl, fun i => i⟩

theorem kept_noteWrite (s : State) (a : Addr) (v : Byte) : Kept s (noteWrite s a v) :=
  ⟨rfl, rfl, rfl, rfl, rfl, fun i => i⟩

theorem kept_setReg (s : State) (b : BitVec 2) (r : Reg8) (v : Byte) : Kept s (setReg s b r v) := kept_putByte ..

theorem kept_setPair (s : State) (b : BitVec 2) (p : RegPair) (v : Word) : Kept s (setPair s b p v) :=
  (kept_setReg ..).trans (kept_setReg ..)

theorem kept_withPsw (s : State) (v : Byte) (h : bitOf v 2 = bitOf s.psw 2) : Kept s (withPsw s v) :=
  ⟨rfl, rfl, rfl, rfl, rfl, fun i => ⟨i.1, i.2.1, h.trans i.2.2⟩⟩

theorem kept_setFlags (s : State) (u : FlagUpdate) : Kept s (setFlags s u) := kept_withPsw _ _ (bit2_flagsInto _ _)

theorem kept_setPsw (s : State) (v : Byte) : Kept s (setPsw s v) :=
  ⟨rfl, rfl, rfl, rfl, rfl, fun i => ⟨i.1, i.2.1, bit2_masked v⟩⟩

theorem kept_withSp (s : State) (w : Word) : Kept s (withSp s w) := ⟨rfl, rfl, rfl, rfl, rfl, fun i => i⟩

/-! Operations that can stop. -/

theorem outcome_eq_next {e : Except Fault State} {t : State} : outcome e = .next t ↔ e = .ok t := by
  cases e <;> simp [outcome]

/-- A sequence completes exactly if its parts do. -/
theorem bind_eq_ok {ε α β : Type} {e : Except ε α} {f : α → Except ε β} {r : β} :
    (e >>= f) = .ok r ↔ ∃ a, e = .ok a ∧ f a = .ok r := by
  cases e <;> simp [bind, Except.bind]

theorem pure_eq_ok {ε α : Type} {a r : α} : (pure a : Except ε α) = .ok r ↔ a = r := by simp [pure, Except.pure]

theorem store8_eq_ok {s t : State} {u : AccessUnit} {a : Addr} {v : Byte} :
    store8 s u a v = .ok t ↔ Writable s u a ∧ putByte (noteWrite s a v) a v = t := by
  simp only [store8, bind_eq_ok, pure_eq_ok, Writable]
  exact ⟨fun ⟨_, h, e⟩ => ⟨h, e⟩, fun ⟨h, e⟩ => ⟨(), h, e⟩⟩

theorem load8_eq_ok {s t : State} {u : AccessUnit} {a : Addr} {v : Byte} :
    load8 s u a = .ok (v, t) ↔ Readable s u a ∧ valueAt s a = v ∧ noteRead s a = t := by
  simp only [load8, bind_eq_ok, pure_eq_ok, Readable, Prod.mk.injEq]
  exact ⟨fun ⟨_, h, e⟩ => ⟨h, e⟩, fun ⟨h, e⟩ => ⟨(), h, e⟩⟩

theorem load16_eq_ok {s t : State} {a : Addr} {v : Word} :
    load16 s a = .ok (v, t) ↔
      Readable s .word a ∧ Readable s .word (a + 1) ∧ wordValueAt s a = v ∧ noteReadWord s a = t := by
  simp only [load16, bind_eq_ok, pure_eq_ok, Prod.exists, load8_eq_ok, Prod.mk.injEq]
  constructor
  · rintro ⟨lo, u, ⟨h, rfl, rfl⟩, hi, w, ⟨h', rfl, rfl⟩, rfl, rfl⟩
    exact ⟨h, h', rfl, rfl⟩
  · rintro ⟨h, h', rfl, rfl⟩
    exact ⟨_, _, ⟨h, rfl, rfl⟩, _, _, ⟨h', rfl, rfl⟩, rfl, rfl⟩

theorem store16_eq_ok {s t : State} {a : Addr} {v : Word} :
    store16 s a v = .ok t ↔
      Writable s .word a ∧ Writable s .word (a + 1) ∧
        putByte (putByte (noteWriteWord s a v) a (loByte v)) (a + 1) (hiByte v) = t := by
  simp only [store16, bind_eq_ok, store8_eq_ok, noteWriteWord]
  constructor
  · rintro ⟨u, ⟨h, rfl⟩, h', rfl⟩
    unfold Writable at h'
    rw [checkWrite_putByte] at h'
    exact ⟨h, h', by rw [noteWrite_putByte]⟩
  · rintro ⟨h, h', rfl⟩
    refine ⟨_, ⟨h, rfl⟩, ?_, by rw [noteWrite_putByte]⟩
    unfold Writable
    rw [checkWrite_putByte]
    exact h'

theorem push8_eq_ok {s t : State} {v : Byte} :
    push8 s v = .ok t ↔ inIhram s.cfg (s.sp - 1) = true ∧ putByte (withSp s (s.sp - 1)) (s.sp - 1) v = t := by
  simp only [push8]
  split_ifs with h
  · simp only [h, true_and, Except.ok.injEq]
  · simp only [h, false_and, reduceCtorEq]

theorem pop8_eq_ok {s t : State} {v : Byte} :
    pop8 s = .ok (v, t) ↔ inIhram s.cfg s.sp = true ∧ byteAt s s.sp = v ∧ withSp s (s.sp + 1) = t := by
  simp only [pop8]
  split_ifs with h
  · simp only [h, true_and, Except.ok.injEq, Prod.mk.injEq]
  · simp only [h, false_and, reduceCtorEq]

theorem pop16_eq_ok {s t : State} {v : Word} :
    pop16 s = .ok (v, t) ↔
      inIhram s.cfg s.sp = true ∧ inIhram s.cfg (s.sp + 1) = true ∧
        mkWord (byteAt (withSp s (s.sp + 1)) (s.sp + 1)) (byteAt s s.sp) = v ∧
        withSp (withSp s (s.sp + 1)) (s.sp + 1 + 1) = t := by
  simp only [pop16, bind_eq_ok, pure_eq_ok, Prod.exists, pop8_eq_ok, Prod.mk.injEq]
  constructor
  · rintro ⟨lo, u, ⟨h, rfl, rfl⟩, hi, w, ⟨h', rfl, rfl⟩, rfl, rfl⟩
    exact ⟨h, h', rfl, rfl⟩
  · rintro ⟨h, h', rfl, rfl⟩
    exact ⟨_, _, ⟨h, rfl, rfl⟩, _, _, ⟨h', rfl, rfl⟩, rfl, rfl⟩

theorem kept_of_load8 {s t : State} {u : AccessUnit} {a : Addr} {v : Byte} (h : load8 s u a = .ok (v, t)) :
    Kept s t := by
  obtain ⟨-, -, rfl⟩ := load8_eq_ok.1 h
  exact kept_noteRead ..

theorem kept_of_load16 {s t : State} {a : Addr} {v : Word} (h : load16 s a = .ok (v, t)) : Kept s t := by
  obtain ⟨-, -, -, rfl⟩ := load16_eq_ok.1 h
  exact (kept_noteRead ..).trans (kept_noteRead ..)

theorem kept_of_loadOperand {s t : State} {u : AccessUnit} {m : MemOperand} {v : Byte}
    (h : loadOperand s u m = .ok (v, t)) : Kept s t := by
  obtain ⟨a, -, h2⟩ := bind_eq_ok.1 h
  exact kept_of_load8 h2

theorem kept_of_bitByte {s t : State} {x : BitOperand} {v : Byte} (h : bitByte s x = .ok (v, t)) : Kept s t := by
  cases x with
  | mem m => exact kept_of_loadOperand h
  | a =>
    simp only [bitByte, Except.ok.injEq, Prod.mk.injEq] at h
    exact h.2 ▸ Kept.refl _
  | psw =>
    simp only [bitByte, Except.ok.injEq, Prod.mk.injEq] at h
    exact h.2 ▸ Kept.refl _

theorem kept_of_readBit {s t : State} {x : BitOperand} {n : BitVec 3} {v : Bool} (h : readBit s x n = .ok (v, t)) :
    Kept s t := by
  simp only [readBit, bind_eq_ok, pure_eq_ok, Prod.exists, Prod.mk.injEq] at h
  obtain ⟨b, u, hu, -, rfl⟩ := h
  exact kept_of_bitByte hu

theorem kept_of_store8 {s t : State} {u : AccessUnit} {a : Addr} {v : Byte} (h : store8 s u a v = .ok t) :
    Kept s t := by
  obtain ⟨-, rfl⟩ := store8_eq_ok.1 h
  exact (kept_noteWrite ..).trans (kept_putByte ..)

theorem kept_of_store16 {s t : State} {a : Addr} {v : Word} (h : store16 s a v = .ok t) : Kept s t := by
  obtain ⟨-, -, rfl⟩ := store16_eq_ok.1 h
  exact (((kept_noteWrite ..).trans (kept_noteWrite ..)).trans (kept_putByte ..)).trans (kept_putByte ..)

theorem kept_of_push8 {s t : State} {v : Byte} (h : push8 s v = .ok t) : Kept s t := by
  obtain ⟨-, rfl⟩ := push8_eq_ok.1 h
  exact (kept_withSp ..).trans (kept_putByte ..)

theorem kept_of_pop8 {s t : State} {v : Byte} (h : pop8 s = .ok (v, t)) : Kept s t := by
  obtain ⟨-, -, rfl⟩ := pop8_eq_ok.1 h
  exact kept_withSp ..

theorem kept_of_push16 {s t : State} {v : Word} (h : push16 s v = .ok t) : Kept s t := by
  obtain ⟨u, h1, h2⟩ := bind_eq_ok.1 h
  exact (kept_of_push8 h1).trans (kept_of_push8 h2)

theorem kept_of_pop16 {s t : State} {v : Word} (h : pop16 s = .ok (v, t)) : Kept s t := by
  obtain ⟨-, -, -, rfl⟩ := pop16_eq_ok.1 h
  exact (kept_withSp ..).trans (kept_withSp ..)

theorem kept_of_putBitByte {s t : State} {x : BitOperand} {v : Byte} (h : putBitByte s x v = .ok t) : Kept s t := by
  cases x with
  | mem m =>
    obtain ⟨a, -, h2⟩ := bind_eq_ok.1 h
    exact kept_of_store8 h2
  | a =>
    simp only [putBitByte, Except.ok.injEq] at h
    exact h ▸ kept_setReg ..
  | psw =>
    simp only [putBitByte, Except.ok.injEq] at h
    exact h ▸ kept_setPsw ..

/-! The shared operations of the families. -/

variable {s t : State} {m : MemOperand} {len : Addr} {hold : Bool}

/-- `t` is the end of an instruction of `len` bytes whose updates keep what no address names. -/
def Advanced (s t : State) (len : Addr) (hold : Bool) : Prop := ∃ u, Kept s u ∧ advance u len hold = t

/-- `t` is the end of an instruction that sets PC, and whose updates keep what no address names. -/
def Jumped (s t : State) : Prop := ∃ u p, Kept s u ∧ jump u p = t

theorem movToA_inv (h : movToA m len s = .next t) : Advanced s t len false := by
  simp only [movToA, outcome_eq_next, bind_eq_ok, pure_eq_ok, Prod.exists] at h
  obtain ⟨v, u, hu, rfl⟩ := h
  exact ⟨_, (kept_of_loadOperand hu).trans (kept_setReg ..), rfl⟩

theorem movImm_inv {v : Byte} (h : movImm m v len hold s = .next t) : Advanced s t len hold := by
  simp only [movImm, outcome_eq_next, bind_eq_ok, pure_eq_ok] at h
  obtain ⟨a, -, u, hu, rfl⟩ := h
  exact ⟨_, kept_of_store8 hu, rfl⟩

theorem movFromA_inv (h : movFromA m len hold s = .next t) : Advanced s t len hold := by
  simp only [movFromA, outcome_eq_next, bind_eq_ok, pure_eq_ok] at h
  obtain ⟨a, -, u, hu, rfl⟩ := h
  exact ⟨_, kept_of_store8 hu, rfl⟩

theorem xchMem_inv (h : xchMem m len s = .next t) : Advanced s t len false := by
  simp only [xchMem, outcome_eq_next, bind_eq_ok, pure_eq_ok, Prod.exists] at h
  obtain ⟨a, -, v, w, hw, u, hu, rfl⟩ := h
  exact ⟨_, ((kept_of_load8 hw).trans (kept_of_store8 hu)).trans (kept_setReg ..), rfl⟩

theorem movwToAx_inv (h : movwToAx m len s = .next t) : Advanced s t len false := by
  simp only [movwToAx, outcome_eq_next, bind_eq_ok, pure_eq_ok, Prod.exists] at h
  obtain ⟨a, -, v, u, hu, rfl⟩ := h
  exact ⟨_, (kept_of_load16 hu).trans (kept_setPair ..), rfl⟩

theorem movwStore_inv {v : Word} (h : movwStore m v len s = .next t) : Advanced s t len false := by
  simp only [movwStore, outcome_eq_next, bind_eq_ok, pure_eq_ok] at h
  obtain ⟨a, -, u, hu, rfl⟩ := h
  exact ⟨_, kept_of_store16 hu, rfl⟩

theorem aluOnReg_inv {op : AluOp} {r : Reg8} {src : Byte} (h : aluOnReg op r src len s = .next t) :
    Advanced s t len false := by
  cases h
  refine ⟨_, ?_, rfl⟩
  split
  · exact (kept_setReg ..).trans (kept_setFlags ..)
  · exact kept_setFlags ..

theorem aluFromMem_inv {op : AluOp} (h : aluFromMem op m len s = .next t) : Advanced s t len false := by
  simp only [aluFromMem, outcome_eq_next, bind_eq_ok, pure_eq_ok, Prod.exists] at h
  obtain ⟨v, u, hu, rfl⟩ := h
  refine ⟨_, (kept_of_loadOperand hu).trans ?_, rfl⟩
  split
  · exact (kept_setReg ..).trans (kept_setFlags ..)
  · exact kept_setFlags ..

theorem aluOnMem_inv {op : AluOp} {src : Byte} (h : aluOnMem op m src len s = .next t) : Advanced s t len false := by
  simp only [aluOnMem, outcome_eq_next, bind_eq_ok, Prod.exists] at h
  obtain ⟨a, -, d, w, hw, h⟩ := h
  split at h <;> simp only [bind_eq_ok, pure_eq_ok, Except.ok.injEq] at h <;> obtain ⟨u, hu, rfl⟩ := h
  · exact ⟨_, ((kept_of_load8 hw).trans (kept_of_store8 hu)).trans (kept_setFlags ..), rfl⟩
  · exact ⟨_, (kept_of_load8 hw).trans (hu ▸ kept_setFlags ..), rfl⟩

theorem aluW_kept (e : Word × FlagUpdate) (stores : Bool) (len : Addr) (s : State) :
    ∃ u, Kept s u ∧ aluW e stores len s = { advance u len with freeCount := s.freeCount + 1 } := by
  refine ⟨_, ?_, rfl⟩
  split
  · exact (kept_setPair ..).trans (kept_setFlags ..)
  · exact kept_setFlags ..

theorem kept_divide (n : Word) (d : Byte) (s : State) : Kept s (divide n d s) := by
  unfold divide
  split <;> exact (kept_setPair ..).trans (kept_setReg ..)

theorem stepReg_advanced (f : Byte → Byte × FlagUpdate) (r : Reg8) (len : Addr) (s : State) :
    Advanced s (stepReg f r len s) len false := ⟨_, (kept_setReg ..).trans (kept_setFlags ..), rfl⟩

theorem stepMem_inv {f : Byte → Byte × FlagUpdate} (h : stepMem f m len s = .next t) : Advanced s t len false := by
  simp only [stepMem, outcome_eq_next, bind_eq_ok, pure_eq_ok, Prod.exists] at h
  obtain ⟨a, -, d, w, hw, u, hu, rfl⟩ := h
  exact ⟨_, ((kept_of_load8 hw).trans (kept_of_store8 hu)).trans (kept_setFlags ..), rfl⟩

theorem rotateA_advanced (f : Byte → Bool → Byte) (out : BitVec 3) (len : Addr) (s : State) :
    Advanced s (rotateA f out len s) len false := ⟨_, (kept_setReg ..).trans (kept_setFlags ..), rfl⟩

theorem rotateDigits_inv {f : Byte → Byte → Byte × Byte} (h : rotateDigits f len s = .next t) :
    Advanced s t len false := by
  simp only [rotateDigits, outcome_eq_next] at h
  split at h
  · simp [bind, Except.bind] at h
  · simp only [bind_eq_ok, pure_eq_ok, Prod.exists] at h
    obtain ⟨m, w, hw, u, hu, rfl⟩ := h
    exact ⟨_, ((kept_of_load8 hw).trans (kept_of_store8 hu)).trans (kept_setReg ..), rfl⟩

theorem adjustA_advanced (e : Byte × FlagUpdate) (len : Addr) (s : State) :
    Advanced s (adjustA e len s) len false := ⟨_, (kept_setReg ..).trans (kept_setFlags ..), rfl⟩

theorem bitToCy_inv {f : Bool → Bool → Bool} {x : BitOperand} {n : BitVec 3} (h : bitToCy f x n len s = .next t) :
    Advanced s t len false := by
  simp only [bitToCy, outcome_eq_next, bind_eq_ok, pure_eq_ok, Prod.exists] at h
  obtain ⟨v, u, hu, rfl⟩ := h
  exact ⟨_, (kept_of_readBit hu).trans (kept_setFlags ..), rfl⟩

theorem bitFromValue_inv {x : BitOperand} {n : BitVec 3} {v : Bool} (h : bitFromValue x n v len hold s = .next t) :
    Advanced s t len hold := by
  simp only [bitFromValue, writeBit, outcome_eq_next, bind_eq_ok, pure_eq_ok, Prod.exists] at h
  obtain ⟨u, ⟨b, w, hw, hu⟩, rfl⟩ := h
  exact ⟨_, (kept_of_bitByte hw).trans (kept_of_putBitByte hu), rfl⟩

theorem branchIf_jumped (c : Bool) (len : Addr) (j : Byte) (u : State) (h : Kept s u) :
    Jumped s (branchIf c len j u) := ⟨u, _, h, rfl⟩

theorem branchOnBit_inv {v : Bool} {x : BitOperand} {n : BitVec 3} {j : Byte}
    (h : branchOnBit v x n len j s = .next t) : Jumped s t := by
  simp only [branchOnBit, outcome_eq_next, bind_eq_ok, pure_eq_ok, Prod.exists] at h
  obtain ⟨b, u, hu, rfl⟩ := h
  exact branchIf_jumped _ _ _ _ (kept_of_readBit hu)

theorem branchAndClear_inv {x : BitOperand} {n : BitVec 3} {j : Byte}
    (h : branchAndClear x n len j s = .next t) : Jumped s t := by
  simp only [branchAndClear, outcome_eq_next, bind_eq_ok, Prod.exists] at h
  obtain ⟨b, w, hw, h⟩ := h
  split at h <;> simp only [bind_eq_ok, pure_eq_ok, Except.ok.injEq] at h <;> obtain ⟨u, hu, rfl⟩ := h
  · exact branchIf_jumped _ _ _ _ ((kept_of_bitByte hw).trans (kept_of_putBitByte hu))
  · exact branchIf_jumped _ _ _ _ (hu ▸ kept_of_bitByte hw)

theorem countReg_jumped (r : Reg8) (len : Addr) (j : Byte) (s : State) : Jumped s (countReg r len j s) :=
  branchIf_jumped _ _ _ _ (kept_setReg ..)

theorem countMem_inv {j : Byte} (h : countMem m len j s = .next t) : Jumped s t := by
  simp only [countMem, outcome_eq_next, bind_eq_ok, pure_eq_ok, Prod.exists] at h
  obtain ⟨a, -, d, w, hw, u, hu, rfl⟩ := h
  exact branchIf_jumped _ _ _ _ ((kept_of_load8 hw).trans (kept_of_store8 hu))

/-- A call whose target is found by an operation that keeps what no address names. -/
theorem callTo_inv {target : State → Except Fault (Addr × State)} (ht : ∀ u a w, target u = .ok (a, w) → Kept u w)
    (h : callTo target len s = .next t) : Jumped s t := by
  simp only [callTo, outcome_eq_next, bind_eq_ok, pure_eq_ok, Prod.exists] at h
  obtain ⟨u, hu, a, w, hw, rfl⟩ := h
  exact ⟨_, _, (kept_of_push16 hu).trans (ht _ _ _ hw), rfl⟩

/-- Entering a handler: the state after the pushes, IE cleared and `mark` applied, at the vector's address. -/
theorem enterVector_eq_ok {ret vector : Addr} {mark : State → State} :
    enterVector s ret vector mark = .ok t ↔
      ∃ u w, push8 s s.psw = .ok u ∧ push16 u ret = .ok w ∧
        let m := mark (withPsw w (withBit w.psw ieBit false))
        Readable m .word vector ∧ Readable m .word (vector + 1) ∧
          jump (noteReadWord m vector) (wordValueAt m vector) = t := by
  simp only [enterVector, bind_eq_ok, pure_eq_ok, Prod.exists, load16_eq_ok]
  constructor
  · rintro ⟨u, hu, w, hw, p, x, ⟨h, h', rfl, rfl⟩, rfl⟩
    exact ⟨u, w, hu, hw, h, h', rfl⟩
  · rintro ⟨u, w, hu, hw, h, h', rfl⟩
    exact ⟨u, hu, w, hw, _, _, ⟨h, h', rfl, rfl⟩, rfl⟩

theorem kept_clearIe (s : State) : Kept s (withPsw s (withBit s.psw ieBit false)) :=
  kept_withPsw _ _ (by rw [bitOf_withBit, if_neg (by decide)])

theorem enterVector_inv {ret vector : Addr} {mark : State → State} (h : enterVector s ret vector mark = .ok t) :
    ∃ u w p, Kept s u ∧ Kept (mark u) w ∧ jump w p = t := by
  obtain ⟨u, w, hu, hw, -, -, rfl⟩ := enterVector_eq_ok.1 h
  exact ⟨_, _, _, ((kept_of_push8 hu).trans (kept_of_push16 hw)).trans (kept_clearIe _),
    (kept_noteRead ..).trans (kept_noteRead ..), rfl⟩

/-- Returning from a handler pops PC, then PSW, and holds interrupts. -/
theorem returnFromVector_inv (h : returnFromVector s = .ok t) :
    ∃ u p, Kept s u ∧ { jump u p with hold := true } = t := by
  simp only [returnFromVector, bind_eq_ok, pure_eq_ok, Prod.exists] at h
  obtain ⟨ret, u, hu, p, w, hw, rfl⟩ := h
  exact ⟨_, _, ((kept_of_pop16 hu).trans (kept_of_pop8 hw)).trans (kept_setPsw _ p), rfl⟩

/-! The invariant over the rest of a step. -/

theorem inv_jump {p : Addr} (h : StateInv s) : StateInv (jump s p) := h

theorem inv_advance (len : Addr) (hold : Bool) (h : StateInv s) : StateInv (advance s len hold) := h

theorem inv_recordAcknowledge (src : IntSource) (h : StateInv s) : StateInv (recordAcknowledge s src) := by
  unfold recordAcknowledge
  split
  · exact h
  · refine inv_putByte _ _ ⟨h.1, h.2.1, ?_⟩
    exact (bitOf_withBit ..).trans (by rw [if_neg (by decide)]; exact h.2.2)

/-- Memories in canonical form that read alike at every address are equal. -/
theorem eq_of_read_eq {m n : Memory} (hm : m.wf = true) (hn : n.wf = true) (h : ∀ a, m.read a = n.read a) : m = n := by
  have low : ∀ {l : Memory} {a : Nat}, Memory.above a l = true → l.read a = Memory.unlisted a := by
    intro l a
    induction l with
    | nil => intro _; rfl
    | cons c l ih =>
      intro hl
      simp only [Memory.above, List.all_cons, Bool.and_eq_true, decide_eq_true_eq] at hl
      simp only [Memory.read, if_neg (Nat.ne_of_gt hl.1)]
      exact ih hl.2
  induction m generalizing n with
  | nil =>
    cases n with
    | nil => rfl
    | cons c n =>
      obtain ⟨k, v⟩ := c
      simp only [Memory.wf, Bool.and_eq_true, bne_iff_ne] at hn
      have := h k
      simp only [Memory.read, if_true] at this
      exact absurd this.symm hn.1.1
  | cons c m ih =>
    obtain ⟨k, v⟩ := c
    have hm' := hm
    simp only [Memory.wf, Bool.and_eq_true, bne_iff_ne] at hm
    cases n with
    | nil =>
      have := h k
      simp only [Memory.read, if_true] at this
      exact absurd this hm.1.1
    | cons d n =>
      obtain ⟨j, w⟩ := d
      have hn' := hn
      simp only [Memory.wf, Bool.and_eq_true, bne_iff_ne] at hn
      rcases Nat.lt_trichotomy k j with hlt | heq | hgt
      · have := h k
        rw [Memory.read, if_pos rfl, Memory.read, if_neg (Nat.ne_of_gt hlt),
          low (above_of_lt hn.1.2 hlt.le)] at this
        exact absurd this hm.1.1
      · subst heq
        have hv := h k
        simp only [Memory.read, if_true] at hv
        subst hv
        rw [ih hm.2 hn.2 (fun a => ?_)]
        by_cases ha : a = k
        · subst ha; rw [low hm.1.2, low hn.1.2]
        · have := h a
          simpa only [Memory.read, if_neg (Ne.symm ha)] using this
      · have := h j
        rw [Memory.read, if_neg (Nat.ne_of_gt hgt), low (above_of_lt hm.1.2 hgt.le), Memory.read, if_pos rfl] at this
        exact absurd this.symm hn.1.1

end Sys2Proof.Machine
end

