-- ==== Sys2Proof/Tests/Slice0.lean ====
section
/-! SUPPORT. Tests: ill-formed terms, words written out from the code list, one step on a small state (expected results
from 95_test_vectors, derived there from the rules), and for every obligation with hypotheses a state that meets them. -/

namespace Sys2Proof.Tests

open Sys2Proof Sys2Proof.Machine

/-! Well-formedness. -/

/-- Each check of `Instr.wf` refuses a term that is no instruction (30_encoding R107, R108). -/
theorem test_wf_refuses_excluded_registers :
    [Instr.movAR .a, .movRA .a, .xchAR .a, .addAR .a, .addcAR .a, .subAR .a, .subcAR .a, .andAR .a, .orAR .a, .xorAR .a,
      .cmpAR .a, .movwAxRp .ax, .movwRpAx .ax, .xchwAxRp .ax].all (fun i => !i.wf) = true := by decide

theorem test_wf_refuses_offsets_of_named_rows :
    [Instr.movSaddrImm 0x1E 0x00, .movASaddr 0x1E, .movSaddrA 0x1E, .movwSaddrpWord 0x1C 0x0000, .movwAxSaddrp 0x1C,
      .movwSaddrpAx 0x1C, .mov1CySaddrBit 0x1E 0, .mov1SaddrBitCy 0x1E 1, .and1CySaddrBit 0x1E 2, .or1CySaddrBit 0x1E 3,
      .xor1CySaddrBit 0x1E 4, .set1SaddrBit 0x1E 5, .clr1SaddrBit 0x1E 6, .set1PswBit 7, .clr1PswBit 7,
      .btSaddrBit 0x1E 0 0x00, .bfSaddrBit 0x1E 1 0x00, .btclrSaddrBit 0x1E 2 0x00].all (fun i => !i.wf) = true := by
  decide

theorem test_wf_accepts_neighbours :
    [Instr.movAR .x, .addRA .a, .movSaddrImm 0x1F 0x00, .movwSaddrpWord 0x1E 0x0000, .set1PswBit 6, .btSaddrBit 0x1D 0 0x00,
      .movwAxRp .hl, .xchASaddr 0x1E].all Instr.wf = true := by decide

/-- A product with a non-maskable source and two maskable ones, their flags in the SFRs FF02H, FF03H and FF10H, as
95_test_vectors section 3.11 has them; region and SFRs are those of the fixture. -/
def product : Config :=
  { Config.fixture with
    sources := [
      { vector := 0x0004, kind := .nonMaskable, releasesHalt := true, releasesStop := true },
      { vector := 0x0006, kind := .maskable ⟨0xFF02, 0⟩ ⟨0xFF03, 0⟩ ⟨0xFF10, 0⟩, releasesHalt := true,
        releasesStop := false },
      { vector := 0x0008, kind := .maskable ⟨0xFF02, 1⟩ ⟨0xFF03, 1⟩ ⟨0xFF10, 1⟩, releasesHalt := true,
        releasesStop := false }] }

/-- A product that differs from the fixture in what the spec leaves to one: code in IHRAM below the registers only, a
device SFR FF20H, the code 06H decoded as NOP, and NOP among the instructions that hold interrupts. -/
def special : Config :=
  { Config.fixture with
    ihramExecutable := [{ lo := 0xFB00, hi := 0xFEDF }]
    sfrs := [Config.plainSfr 0xFF10, { Config.plainSfr 0xFF20 with behaviour := .device }]
    opcodeAliases := [{ code := [0x06], actsAs := [0x00] }]
    moreHold := [[(0xFF, 0x00)]] }

theorem test_config_ok : Config.fixture.ok = true ∧ product.ok = true ∧ special.ok = true := by decide

/-- The fixture's region, from `lo` to `hi`. -/
def romRegion (lo hi : Nat) : Region :=
  { lo := lo, hi := hi, kind := .rom, readable := true, writable := false, executable := true }

/-- Each check of `Config.ok` refuses a product without it. -/
theorem test_config_refuses :
    [{ product with ihramLo := 0xFE21 },
      { product with regions := [romRegion 0x0000 0xFB00] },
      { product with regions := [romRegion 0x0000 0x0FFF, { romRegion 0x2001 0x2000 with kind := .external }] },
      { product with regions := [] },
      { product with regions := [romRegion 0x0000 0x0FFE] },
      { product with regions := [romRegion 0x0001 0x7FFF] },
      { product with regions := [{ romRegion 0x0000 0x7FFF with kind := .external }] },
      { product with regions := [{ romRegion 0x0000 0x7FFF with writable := true }] },
      { product with regions := [{ romRegion 0x0000 0x7FFF with readable := false }] },
      { product with regions := [{ romRegion 0x0000 0x7FFF with executable := false }] },
      { product with opcodeAliases := [{ code := [0x06], actsAs := [0x31, 0x98] }] },
      { product with opcodeAliases := [{ code := [], actsAs := [] }] },
      { product with sfrs := [{ Config.plainSfr 0xFF02 with behaviour := .device }, Config.plainSfr 0xFF03,
                              Config.plainSfr 0xFF10] },
      { product with regions := product.regions ++ product.regions },
      { product with sfrs := Config.plainSfr 0xFEFF :: product.sfrs },
      { product with sfrs := Config.plainSfr 0xFF1E :: product.sfrs },
      { product with sfrs := Config.plainSfr 0xFF02 :: product.sfrs },
      { product with sources := [{ vector := 0x0005, kind := .nonMaskable, releasesHalt := true, releasesStop := true }] },
      { product with sources := [{ vector := 0x0000, kind := .nonMaskable, releasesHalt := true, releasesStop := true }] },
      { product with sources := [{ vector := 0x003E, kind := .nonMaskable, releasesHalt := true, releasesStop := true }] },
      { product with sources := product.sources ++ product.sources.take 1 },
      { product with sources := [{ vector := 0x0006, kind := .maskable ⟨0xFF04, 0⟩ ⟨0xFF03, 0⟩ ⟨0xFF10, 0⟩,
                                   releasesHalt := true, releasesStop := false }] },
      { product with sources := [{ vector := 0x0006, kind := .maskable ⟨0xFF03, 0⟩ ⟨0xFF03, 0⟩ ⟨0xFF10, 0⟩,
                                   releasesHalt := true, releasesStop := false }] }].all (fun c => !c.ok) = true := by
  decide

/-! Decoding. -/

/-- Each list of bytes decodes to the instruction beside it, with nothing left over. -/
def reads (rows : List (List Byte × Instr)) : Bool :=
  rows.all fun r =>
    match decode r.1 with
    | .ok (i, []) => i == r.2
    | _ => false

/-- Words of spec/40, bit by bit from the code list (30_encoding R110). -/
theorem test_decode_transfer8_a : reads [
    ([0b10100011, 0b10011100], .movRImm .b 0x9C),
    ([0b00010001, 0b01000111, 0b10011100], .movSaddrImm 0x47 0x9C),
    ([0b00010011, 0b00100011, 0b10011100], .movSfrImm 0x23 0x9C),
    ([0b01100100], .movAR .e),
    ([0b01110111], .movRA .h),
    ([0b11110000, 0b01000111], .movASaddr 0x47),
    ([0b11110010, 0b01000111], .movSaddrA 0x47),
    ([0b11110100, 0b00100011], .movASfr 0x23),
    ([0b11110110, 0b00100011], .movSfrA 0x23),
    ([0b10001110, 0b00110100, 0b11110010], .movAAbs 0xF234),
    ([0b10011110, 0b00110100, 0b11110010], .movAbsA 0xF234),
    ([0b00010001, 0b00011110, 0b10011100], .movPswImm 0x9C),
    ([0b11110000, 0b00011110], .movAPsw),
    ([0b11110010, 0b00011110], .movPswA),
    ([0b10000101], .movADe),
    ([0b10010101], .movDeA),
    ([0b10000111], .movAHl),
    ([0b10010111], .movHlA),
    ([0b10101110, 0b10011100], .movAHlByte 0x9C),
    ([0b10111110, 0b10011100], .movHlByteA 0x9C),
    ([0b10101011], .movAHlB),
    ([0b10111011], .movHlBA),
    ([0b10101010], .movAHlC),
    ([0b10111010], .movHlCA)] = true := by decide

/-- Words of spec/40, bit by bit from the code list (30_encoding R110). -/
theorem test_decode_transfer8_b : reads [
    ([0b00110011], .xchAR .b),
    ([0b10000011, 0b01000111], .xchASaddr 0x47),
    ([0b10010011, 0b00100011], .xchASfr 0x23),
    ([0b11001110, 0b00110100, 0b11110010], .xchAAbs 0xF234),
    ([0b00000101], .xchADe),
    ([0b00000111], .xchAHl),
    ([0b11011110, 0b10011100], .xchAHlByte 0x9C),
    ([0b00110001, 0b10001011], .xchAHlB),
    ([0b00110001, 0b10001010], .xchAHlC)] = true := by decide

/-- Words of spec/41, bit by bit from the code list (30_encoding R110). -/
theorem test_decode_transfer16 : reads [
    ([0b00010100, 0b11001101, 0b10101011], .movwRpWord .de 0xABCD),
    ([0b11101110, 0b01000111, 0b11001101, 0b10101011], .movwSaddrpWord 0x47 0xABCD),
    ([0b11111110, 0b00100011, 0b11001101, 0b10101011], .movwSfrpWord 0x23 0xABCD),
    ([0b10001001, 0b01000111], .movwAxSaddrp 0x47),
    ([0b10011001, 0b01000111], .movwSaddrpAx 0x47),
    ([0b10101001, 0b00100011], .movwAxSfrp 0x23),
    ([0b10111001, 0b00100011], .movwSfrpAx 0x23),
    ([0b11000110], .movwAxRp .hl),
    ([0b11010010], .movwRpAx .bc),
    ([0b00000010, 0b00110100, 0b11110010], .movwAxAbs 0xF234),
    ([0b00000011, 0b00110100, 0b11110010], .movwAbsAx 0xF234),
    ([0b11100010], .xchwAxRp .bc)] = true := by decide

/-- Words of spec/42, bit by bit from the code list (30_encoding R110). -/
theorem test_decode_alu8_a : reads [
    ([0b00001101, 0b10011100], .addAImm 0x9C),
    ([0b10001000, 0b01000111, 0b10011100], .addSaddrImm 0x47 0x9C),
    ([0b01100001, 0b00001000], .addAR .x),
    ([0b01100001, 0b00000011], .addRA .b),
    ([0b00001110, 0b01000111], .addASaddr 0x47),
    ([0b00001000, 0b00110100, 0b11110010], .addAAbs 0xF234),
    ([0b00001111], .addAHl),
    ([0b00001001, 0b10011100], .addAHlByte 0x9C),
    ([0b00110001, 0b00001011], .addAHlB),
    ([0b00110001, 0b00001010], .addAHlC),
    ([0b00101101, 0b10011100], .addcAImm 0x9C),
    ([0b10101000, 0b01000111, 0b10011100], .addcSaddrImm 0x47 0x9C),
    ([0b01100001, 0b00101110], .addcAR .l),
    ([0b01100001, 0b00100110], .addcRA .l),
    ([0b00101110, 0b01000111], .addcASaddr 0x47),
    ([0b00101000, 0b00110100, 0b11110010], .addcAAbs 0xF234),
    ([0b00101111], .addcAHl),
    ([0b00101001, 0b10011100], .addcAHlByte 0x9C),
    ([0b00110001, 0b00101011], .addcAHlB),
    ([0b00110001, 0b00101010], .addcAHlC),
    ([0b00011101, 0b10011100], .subAImm 0x9C),
    ([0b10011000, 0b01000111, 0b10011100], .subSaddrImm 0x47 0x9C),
    ([0b01100001, 0b00011100], .subAR .e),
    ([0b01100001, 0b00010111], .subRA .h)] = true := by decide

/-- Words of spec/42, bit by bit from the code list (30_encoding R110). -/
theorem test_decode_alu8_b : reads [
    ([0b00011110, 0b01000111], .subASaddr 0x47),
    ([0b00011000, 0b00110100, 0b11110010], .subAAbs 0xF234),
    ([0b00011111], .subAHl),
    ([0b00011001, 0b10011100], .subAHlByte 0x9C),
    ([0b00110001, 0b00011011], .subAHlB),
    ([0b00110001, 0b00011010], .subAHlC),
    ([0b00111101, 0b10011100], .subcAImm 0x9C),
    ([0b10111000, 0b01000111, 0b10011100], .subcSaddrImm 0x47 0x9C),
    ([0b01100001, 0b00111010], .subcAR .c),
    ([0b01100001, 0b00110101], .subcRA .d),
    ([0b00111110, 0b01000111], .subcASaddr 0x47),
    ([0b00111000, 0b00110100, 0b11110010], .subcAAbs 0xF234),
    ([0b00111111], .subcAHl),
    ([0b00111001, 0b10011100], .subcAHlByte 0x9C),
    ([0b00110001, 0b00111011], .subcAHlB),
    ([0b00110001, 0b00111010], .subcAHlC),
    ([0b01011101, 0b10011100], .andAImm 0x9C),
    ([0b11011000, 0b01000111, 0b10011100], .andSaddrImm 0x47 0x9C),
    ([0b01100001, 0b01011000], .andAR .x),
    ([0b01100001, 0b01010011], .andRA .b),
    ([0b01011110, 0b01000111], .andASaddr 0x47),
    ([0b01011000, 0b00110100, 0b11110010], .andAAbs 0xF234),
    ([0b01011111], .andAHl),
    ([0b01011001, 0b10011100], .andAHlByte 0x9C)] = true := by decide

/-- Words of spec/42, bit by bit from the code list (30_encoding R110). -/
theorem test_decode_alu8_c : reads [
    ([0b00110001, 0b01011011], .andAHlB),
    ([0b00110001, 0b01011010], .andAHlC),
    ([0b01101101, 0b10011100], .orAImm 0x9C),
    ([0b11101000, 0b01000111, 0b10011100], .orSaddrImm 0x47 0x9C),
    ([0b01100001, 0b01101110], .orAR .l),
    ([0b01100001, 0b01100110], .orRA .l),
    ([0b01101110, 0b01000111], .orASaddr 0x47),
    ([0b01101000, 0b00110100, 0b11110010], .orAAbs 0xF234),
    ([0b01101111], .orAHl),
    ([0b01101001, 0b10011100], .orAHlByte 0x9C),
    ([0b00110001, 0b01101011], .orAHlB),
    ([0b00110001, 0b01101010], .orAHlC),
    ([0b01111101, 0b10011100], .xorAImm 0x9C),
    ([0b11111000, 0b01000111, 0b10011100], .xorSaddrImm 0x47 0x9C),
    ([0b01100001, 0b01111100], .xorAR .e),
    ([0b01100001, 0b01110111], .xorRA .h),
    ([0b01111110, 0b01000111], .xorASaddr 0x47),
    ([0b01111000, 0b00110100, 0b11110010], .xorAAbs 0xF234),
    ([0b01111111], .xorAHl),
    ([0b01111001, 0b10011100], .xorAHlByte 0x9C),
    ([0b00110001, 0b01111011], .xorAHlB),
    ([0b00110001, 0b01111010], .xorAHlC),
    ([0b01001101, 0b10011100], .cmpAImm 0x9C),
    ([0b11001000, 0b01000111, 0b10011100], .cmpSaddrImm 0x47 0x9C)] = true := by decide

/-- Words of spec/42, bit by bit from the code list (30_encoding R110). -/
theorem test_decode_alu8_d : reads [
    ([0b01100001, 0b01001010], .cmpAR .c),
    ([0b01100001, 0b01000101], .cmpRA .d),
    ([0b01001110, 0b01000111], .cmpASaddr 0x47),
    ([0b01001000, 0b00110100, 0b11110010], .cmpAAbs 0xF234),
    ([0b01001111], .cmpAHl),
    ([0b01001001, 0b10011100], .cmpAHlByte 0x9C),
    ([0b00110001, 0b01001011], .cmpAHlB),
    ([0b00110001, 0b01001010], .cmpAHlC)] = true := by decide

/-- Words of spec/43, bit by bit from the code list (30_encoding R110). -/
theorem test_decode_alu16 : reads [
    ([0b11001010, 0b11001101, 0b10101011], .addwAxWord 0xABCD),
    ([0b11011010, 0b11001101, 0b10101011], .subwAxWord 0xABCD),
    ([0b11101010, 0b11001101, 0b10101011], .cmpwAxWord 0xABCD)] = true := by decide

/-- Words of spec/44, bit by bit from the code list (30_encoding R110). -/
theorem test_decode_mul_div_inc_dec : reads [
    ([0b00110001, 0b10001000], .mulu),
    ([0b00110001, 0b10000010], .divuw),
    ([0b01000110], .incR .l),
    ([0b10000001, 0b01000111], .incSaddr 0x47),
    ([0b01010111], .decR .h),
    ([0b10010001, 0b01000111], .decSaddr 0x47),
    ([0b10000010], .incwRp .bc),
    ([0b10010100], .decwRp .de)] = true := by decide

/-- Words of spec/45, bit by bit from the code list (30_encoding R110). -/
theorem test_decode_rotate_bcd : reads [
    ([0b00100100], .ror),
    ([0b00100110], .rol),
    ([0b00100101], .rorc),
    ([0b00100111], .rolc),
    ([0b00110001, 0b10010000], .ror4),
    ([0b00110001, 0b10000000], .rol4),
    ([0b01100001, 0b10000000], .adjba),
    ([0b01100001, 0b10010000], .adjbs)] = true := by decide

/-- Words of spec/46, bit by bit from the code list (30_encoding R110). -/
theorem test_decode_bit_a : reads [
    ([0b01110001, 0b01010100, 0b01000111], .mov1CySaddrBit 0x47 5),
    ([0b01110001, 0b00101100, 0b00100011], .mov1CySfrBit 0x23 2),
    ([0b01100001, 0b11101100], .mov1CyABit 6),
    ([0b01110001, 0b00010100, 0b00011110], .mov1CyPswBit 1),
    ([0b01110001, 0b10110100], .mov1CyHlBit 3),
    ([0b01110001, 0b01010001, 0b01000111], .mov1SaddrBitCy 0x47 5),
    ([0b01110001, 0b00101001, 0b00100011], .mov1SfrBitCy 0x23 2),
    ([0b01100001, 0b11101001], .mov1ABitCy 6),
    ([0b01110001, 0b00010001, 0b00011110], .mov1PswBitCy 1),
    ([0b01110001, 0b10110001], .mov1HlBitCy 3),
    ([0b01110001, 0b01010101, 0b01000111], .and1CySaddrBit 0x47 5),
    ([0b01110001, 0b00101101, 0b00100011], .and1CySfrBit 0x23 2),
    ([0b01100001, 0b11101101], .and1CyABit 6),
    ([0b01110001, 0b00010101, 0b00011110], .and1CyPswBit 1),
    ([0b01110001, 0b10110101], .and1CyHlBit 3),
    ([0b01110001, 0b01010110, 0b01000111], .or1CySaddrBit 0x47 5),
    ([0b01110001, 0b00101110, 0b00100011], .or1CySfrBit 0x23 2),
    ([0b01100001, 0b11101110], .or1CyABit 6),
    ([0b01110001, 0b00010110, 0b00011110], .or1CyPswBit 1),
    ([0b01110001, 0b10110110], .or1CyHlBit 3),
    ([0b01110001, 0b01010111, 0b01000111], .xor1CySaddrBit 0x47 5),
    ([0b01110001, 0b00101111, 0b00100011], .xor1CySfrBit 0x23 2),
    ([0b01100001, 0b11101111], .xor1CyABit 6),
    ([0b01110001, 0b00010111, 0b00011110], .xor1CyPswBit 1)] = true := by decide

/-- Words of spec/46, bit by bit from the code list (30_encoding R110). -/
theorem test_decode_bit_b : reads [
    ([0b01110001, 0b10110111], .xor1CyHlBit 3),
    ([0b01011010, 0b01000111], .set1SaddrBit 0x47 5),
    ([0b01110001, 0b00101010, 0b00100011], .set1SfrBit 0x23 2),
    ([0b01100001, 0b11101010], .set1ABit 6),
    ([0b00011010, 0b00011110], .set1PswBit 1),
    ([0b01110001, 0b10110010], .set1HlBit 3),
    ([0b01011011, 0b01000111], .clr1SaddrBit 0x47 5),
    ([0b01110001, 0b00101011, 0b00100011], .clr1SfrBit 0x23 2),
    ([0b01100001, 0b11101011], .clr1ABit 6),
    ([0b00011011, 0b00011110], .clr1PswBit 1),
    ([0b01110001, 0b10110011], .clr1HlBit 3),
    ([0b00100000], .set1Cy),
    ([0b00100001], .clr1Cy),
    ([0b00000001], .not1Cy)] = true := by decide

/-- Words of spec/47, bit by bit from the code list (30_encoding R110). -/
theorem test_decode_call_stack : reads [
    ([0b10011010, 0b00110100, 0b11110010], .call 0xF234),
    ([0b01011100, 0b00101010], .callf 0x52A),
    ([0b11101101], .callt 0b10110),
    ([0b10111111], .brk),
    ([0b10101111], .ret),
    ([0b10011111], .retb),
    ([0b10001111], .reti),
    ([0b00100010], .pushPsw),
    ([0b10110111], .pushRp .hl),
    ([0b00100011], .popPsw),
    ([0b10110100], .popRp .de),
    ([0b11101110, 0b00011100, 0b11001101, 0b10101011], .movwSpWord 0xABCD),
    ([0b10011001, 0b00011100], .movwSpAx),
    ([0b10001001, 0b00011100], .movwAxSp)] = true := by decide

/-- Words of spec/48, bit by bit from the code list (30_encoding R110). -/
theorem test_decode_branch_a : reads [
    ([0b10011011, 0b00110100, 0b11110010], .brAbs 0xF234),
    ([0b11111010, 0b11110110], .brRel 0xF6),
    ([0b00110001, 0b10011000], .brAx),
    ([0b10001101, 0b11110110], .bc 0xF6),
    ([0b10011101, 0b11110110], .bnc 0xF6),
    ([0b10101101, 0b11110110], .bz 0xF6),
    ([0b10111101, 0b11110110], .bnz 0xF6),
    ([0b10111100, 0b01000111, 0b11110110], .btSaddrBit 0x47 3 0xF6),
    ([0b00110001, 0b01010110, 0b00100011, 0b11110110], .btSfrBit 0x23 5 0xF6),
    ([0b00110001, 0b00101110, 0b11110110], .btABit 2 0xF6),
    ([0b11101100, 0b00011110, 0b11110110], .btPswBit 6 0xF6),
    ([0b00110001, 0b10010110, 0b11110110], .btHlBit 1 0xF6),
    ([0b00110001, 0b00110011, 0b01000111, 0b11110110], .bfSaddrBit 0x47 3 0xF6),
    ([0b00110001, 0b01010111, 0b00100011, 0b11110110], .bfSfrBit 0x23 5 0xF6),
    ([0b00110001, 0b00101111, 0b11110110], .bfABit 2 0xF6),
    ([0b00110001, 0b01100011, 0b00011110, 0b11110110], .bfPswBit 6 0xF6),
    ([0b00110001, 0b10010111, 0b11110110], .bfHlBit 1 0xF6),
    ([0b00110001, 0b00110001, 0b01000111, 0b11110110], .btclrSaddrBit 0x47 3 0xF6),
    ([0b00110001, 0b01010101, 0b00100011, 0b11110110], .btclrSfrBit 0x23 5 0xF6),
    ([0b00110001, 0b00101101, 0b11110110], .btclrABit 2 0xF6),
    ([0b00110001, 0b01100001, 0b00011110, 0b11110110], .btclrPswBit 6 0xF6),
    ([0b00110001, 0b10010101, 0b11110110], .btclrHlBit 1 0xF6),
    ([0b10001011, 0b11110110], .dbnzB 0xF6),
    ([0b10001010, 0b11110110], .dbnzC 0xF6)] = true := by decide

/-- Words of spec/48, bit by bit from the code list (30_encoding R110). -/
theorem test_decode_branch_b : reads [
    ([0b00000100, 0b01000111, 0b11110110], .dbnzSaddr 0x47 0xF6)] = true := by decide

/-- Words of spec/49, bit by bit from the code list (30_encoding R110). -/
theorem test_decode_control : reads [
    ([0b01100001, 0b11110000], .sel 2),
    ([0b00000000], .nop),
    ([0b01111010, 0b00011110], .ei),
    ([0b01111011, 0b00011110], .di),
    ([0b01110001, 0b00010000], .halt),
    ([0b01110001, 0b00000000], .stop)] = true := by decide
/-- The named rows and the excluded codes of 95_test_vectors section 2. -/
theorem test_decode_named_rows : reads [
    ([0x11, 0x1F, 0x2A], .movSaddrImm 0x1F 0x2A), ([0x7A, 0x1D], .set1SaddrBit 0x1D 7), ([0x7A, 0x20], .set1SaddrBit 0x20 7),
    ([0x61, 0x01], .addRA .a), ([0x61, 0x80], .adjba), ([0x7C, 0xFF], .callf 0x7FF), ([0xFF], .callt 0x1F)] = true ∧
    [[0x06], [0xC0], [0xE0], [0x31, 0x00], [0x61, 0x09], [0x61, 0xE0], [0x71, 0x20]].all (fun b =>
      match decode b with
      | .error (.undefined u) => u == b
      | _ => false) = true := by decide

/-- The bits of opcode_table.json, as the host numbers them. -/
theorem test_table_words :
    decodeTableWord 8 0x62 = some (.movAR .c) ∧ decodeTableWord 16 0x61F0 = some (.sel 2) ∧
    decodeTableWord 32 0xEE1C1FFE = some (.movwSpWord 0xFE1F) ∧ decodeTableWord 8 0x06 = none := by decide

/-! One step. -/

/-- The start state of 95_test_vectors section 0, with the given PSW, SP, NMIS and bytes. -/
def start (psw : Byte) (sp : Word) (nmis : Bool) (cells : List Host.Cell) : State :=
  { State.reset with pc := 0x1000, psw := psw, sp := sp, nmis := nmis, mem := Memory.writeAll [] cells }

/-- The instruction at 1000H: one step leads to the given PC, PSW, SP, bytes, hold, mode and NMIS. -/
def ends (s : State) (bytes : List Byte) (pc : Addr) (psw : Byte) (sp : Word) (cells : List Host.Cell) (hold : Bool)
    (mode : Mode) (nmis : Bool) : Bool :=
  match step (placeBytes s s.pc bytes) with
  | .next t =>
    t.pc == pc && t.psw == psw && t.sp == sp && cells.all (fun c => t.mem.read c.1 == c.2) && t.hold == hold &&
      t.mode == mode && t.nmis == nmis
  | _ => false

-- 95_test_vectors S2
theorem test_mov_reg : ends (start 0x02 0xFE20 false [(0xFEFA, 0x5A)]) [0x62]
    0x1001 0x02 0xFE20 [(0xFEF9, 0x5A)] false .run false = true := by decide

-- 95_test_vectors S4
theorem test_mov_abs : ends (start 0x02 0xFE20 false [(0xFE00, 0x77)]) [0x8E, 0x00, 0xFE]
    0x1003 0x02 0xFE20 [(0xFEF9, 0x77)] false .run false = true := by decide

-- 95_test_vectors S5
theorem test_mov_saddr_imm : ends (start 0x02 0xFE20 false []) [0x11, 0x30, 0x50]
    0x1003 0x02 0xFE20 [(0xFE30, 0x50)] false .run false = true := by decide

-- 95_test_vectors S6
theorem test_mov_sfr : ends (start 0x02 0xFE20 false [(0xFEF9, 0x0F)]) [0xF6, 0x20]
    0x1002 0x02 0xFE20 [(0xFF20, 0x0F)] false .run false = true := by decide

-- 95_test_vectors S7
theorem test_mov_de : ends (start 0x02 0xFE20 false [(0xFEFC, 0x40), (0xFEFD, 0xFE), (0xFE40, 0x99)]) [0x85]
    0x1001 0x02 0xFE20 [(0xFEF9, 0x99)] false .run false = true := by decide

-- 95_test_vectors S8
theorem test_mov_hl_byte : ends (start 0x02 0xFE20 false [(0xFEFE, 0x40), (0xFEFF, 0xFE), (0xFE50, 0x42)]) [0xAE, 0x10]
    0x1002 0x02 0xFE20 [(0xFEF9, 0x42)] false .run false = true := by decide

-- 95_test_vectors S9
theorem test_mov_hl_b : ends (start 0x02 0xFE20 false [(0xFEFE, 0x40), (0xFEFF, 0xFE), (0xFEFB, 0x05), (0xFE45, 0x24)]) [0xAB]
    0x1001 0x02 0xFE20 [(0xFEF9, 0x24)] false .run false = true := by decide

-- 95_test_vectors S11
theorem test_mov_imm : ends (start 0x02 0xFE20 false []) [0xA1, 0x4D]
    0x1002 0x02 0xFE20 [(0xFEF9, 0x4D)] false .run false = true := by decide

-- 95_test_vectors VT8
theorem test_mov_psw_discards_bit2 : ends (start 0x02 0xFE20 false []) [0x11, 0x1E, 0xFF]
    0x1003 0xFB 0xFE20 [] true .run false = true := by decide

-- 95_test_vectors VT11
theorem test_mov_psw_a : ends (start 0x02 0xFE20 false [(0xFEF9, 0x47)]) [0xF2, 0x1E]
    0x1002 0x43 0xFE20 [] true .run false = true := by decide

-- 95_test_vectors VT12
theorem test_mov_sfr_psw : ends (start 0x53 0xFE20 false []) [0xF4, 0x1E]
    0x1002 0x53 0xFE20 [(0xFEF9, 0x53)] false .run false = true := by decide

-- 95_test_vectors VT19
theorem test_mov_based_wraps : ends (start 0x02 0xFE20 false [(0xFEFE, 0xF0), (0xFEFF, 0xFF), (0x10, 0x77)]) [0xAE, 0x20]
    0x1002 0x02 0xFE20 [(0xFEF9, 0x77)] false .run false = true := by decide

-- 95_test_vectors VT22
theorem test_mov_hl_c_unsigned : ends (start 0x02 0xFE20 false [(0xFEF9, 0x45), (0xFEFE, 0x50), (0xFEFF, 0xFD), (0xFEFA, 0xFF)]) [0xBA]
    0x1001 0x02 0xFE20 [(0xFE4F, 0x45)] false .run false = true := by decide

-- 95_test_vectors S12
theorem test_xch_saddr : ends (start 0x02 0xFE20 false [(0xFEF9, 0x11), (0xFEBC, 0x22)]) [0x83, 0xBC]
    0x1002 0x02 0xFE20 [(0xFEF9, 0x22), (0xFEBC, 0x11)] false .run false = true := by decide

-- 95_test_vectors VT27
theorem test_xch_a_with_itself : ends (start 0x02 0xFE20 false [(0xFEF9, 0x12)]) [0x83, 0xF9]
    0x1002 0x02 0xFE20 [(0xFEF9, 0x12)] false .run false = true := by decide

-- 95_test_vectors VT28
theorem test_xch_psw : ends (start 0x02 0xFE20 false [(0xFEF9, 0x51)]) [0x93, 0x1E]
    0x1002 0x51 0xFE20 [(0xFEF9, 0x02)] false .run false = true := by decide

-- 95_test_vectors VT34
theorem test_xch_hl_c : ends (start 0x02 0xFE20 false [(0xFEF9, 0x01), (0xFEFE, 0x40), (0xFEFF, 0xFE), (0xFEFA, 0x07), (0xFE47, 0x02)]) [0x31, 0x8A]
    0x1002 0x02 0xFE20 [(0xFEF9, 0x02), (0xFE47, 0x01)] false .run false = true := by decide

-- 95_test_vectors S13
theorem test_movw_reg : ends (start 0x02 0xFE20 false [(0xFEFE, 0xEF), (0xFEFF, 0xBE)]) [0xC6]
    0x1001 0x02 0xFE20 [(0xFEF8, 0xEF), (0xFEF9, 0xBE)] false .run false = true := by decide

-- 95_test_vectors S14
theorem test_xchw : ends (start 0x02 0xFE20 false [(0xFEF8, 0x22), (0xFEF9, 0x11), (0xFEFA, 0x44), (0xFEFB, 0x33)]) [0xE2]
    0x1001 0x02 0xFE20 [(0xFEF8, 0x44), (0xFEF9, 0x33), (0xFEFA, 0x22), (0xFEFB, 0x11)] false .run false = true := by decide

-- 95_test_vectors VW3
theorem test_movw_saddrp_imm : ends (start 0x02 0xFE20 false []) [0xEE, 0x40, 0xCD, 0xAB]
    0x1004 0x02 0xFE20 [(0xFE40, 0xCD), (0xFE41, 0xAB)] false .run false = true := by decide

-- 95_test_vectors VW8
theorem test_movw_sfrp_sp : ends (start 0x02 0xFE80 false []) [0xA9, 0x1C]
    0x1002 0x02 0xFE80 [(0xFEF8, 0x80), (0xFEF9, 0xFE)] false .run false = true := by decide

-- 95_test_vectors VW11
theorem test_movw_abs : ends (start 0x02 0xFE20 false [(0xFE40, 0x78), (0xFE41, 0x56)]) [0x02, 0x40, 0xFE]
    0x1003 0x02 0xFE20 [(0xFEF8, 0x78), (0xFEF9, 0x56)] false .run false = true := by decide

-- 95_test_vectors VW21
theorem test_movw_bank1 : ends (start 0x0A 0xFE20 false []) [0x14, 0xEF, 0xBE]
    0x1003 0x0A 0xFE20 [(0xFEF4, 0xEF), (0xFEF5, 0xBE)] false .run false = true := by decide

-- 95_test_vectors S15
theorem test_add_saddr : ends (start 0x02 0xFE20 false [(0xFF10, 0xC0)]) [0x88, 0x10, 0x56]
    0x1003 0x03 0xFE20 [(0xFF10, 0x16)] false .run false = true := by decide

-- 95_test_vectors VA1
theorem test_add_wraps : ends (start 0x02 0xFE20 false [(0xFEF9, 0xFF)]) [0x0D, 0x01]
    0x1002 0x53 0xFE20 [(0xFEF9, 0x00)] false .run false = true := by decide

-- 95_test_vectors S16
theorem test_addc : ends (start 0x03 0xFE20 false [(0xFEF9, 0x10), (0xFEFE, 0x40), (0xFEFF, 0xFE), (0xFEFB, 0x02), (0xFE42, 0x0F)]) [0x31, 0x2B]
    0x1002 0x12 0xFE20 [(0xFEF9, 0x20)] false .run false = true := by decide

-- 95_test_vectors VA14
theorem test_addc_carry_alone : ends (start 0x03 0xFE20 false [(0xFEF9, 0xFF)]) [0x2D, 0x00]
    0x1002 0x53 0xFE20 [(0xFEF9, 0x00)] false .run false = true := by decide

-- 95_test_vectors S17
theorem test_sub : ends (start 0x02 0xFE20 false [(0xFEFD, 0x50), (0xFEF9, 0x51)]) [0x61, 0x15]
    0x1002 0x13 0xFE20 [(0xFEFD, 0xFF)] false .run false = true := by decide

-- 95_test_vectors VA18
theorem test_sub_borrow : ends (start 0x02 0xFE20 false [(0xFEF9, 0x00)]) [0x1D, 0x01]
    0x1002 0x13 0xFE20 [(0xFEF9, 0xFF)] false .run false = true := by decide

-- 95_test_vectors S18
theorem test_subc : ends (start 0x03 0xFE20 false [(0xFEF9, 0x20), (0xFEFE, 0x40), (0xFEFF, 0xFE), (0xFE40, 0x1F)]) [0x3F]
    0x1001 0x52 0xFE20 [(0xFEF9, 0x00)] false .run false = true := by decide

-- 95_test_vectors VA23
theorem test_subc_all_ones : ends (start 0x03 0xFE20 false [(0xFEF9, 0x00)]) [0x3D, 0xFF]
    0x1002 0x53 0xFE20 [(0xFEF9, 0x00)] false .run false = true := by decide

-- 95_test_vectors S19
theorem test_and : ends (start 0x02 0xFE20 false [(0xFEBA, 0x37)]) [0xD8, 0xBA, 0xDC]
    0x1003 0x02 0xFE20 [(0xFEBA, 0x14)] false .run false = true := by decide

-- 95_test_vectors VA41
theorem test_and_psw : ends (start 0xC3 0xFE20 false []) [0xD8, 0x1E, 0x7F]
    0x1003 0x03 0xFE20 [] false .run false = true := by decide

-- 95_test_vectors S20
theorem test_or : ends (start 0x02 0xFE20 false [(0xFEF9, 0x41), (0xFE98, 0x82)]) [0x6E, 0x98]
    0x1002 0x02 0xFE20 [(0xFEF9, 0xC3)] false .run false = true := by decide

-- 95_test_vectors VA28
theorem test_or_keeps_carry : ends (start 0x03 0xFE20 false [(0xFEF9, 0x00)]) [0x6D, 0x00]
    0x1002 0x43 0xFE20 [(0xFEF9, 0x00)] false .run false = true := by decide

-- 95_test_vectors S21
theorem test_xor : ends (start 0x02 0xFE20 false [(0xFEF9, 0x5C), (0xFEFE, 0x34)]) [0x61, 0x7E]
    0x1002 0x02 0xFE20 [(0xFEF9, 0x68)] false .run false = true := by decide

-- 95_test_vectors VA32
theorem test_xor_a_a : ends (start 0x03 0xFE20 false [(0xFEF9, 0x77)]) [0x61, 0x71]
    0x1002 0x43 0xFE20 [(0xFEF9, 0x00)] false .run false = true := by decide

-- 95_test_vectors S22
theorem test_cmp : ends (start 0x02 0xFE20 false [(0xFE38, 0x38)]) [0xC8, 0x38, 0x38]
    0x1003 0x42 0xFE20 [(0xFE38, 0x38)] false .run false = true := by decide

-- 95_test_vectors VA36
theorem test_cmp_unsigned : ends (start 0x02 0xFE20 false [(0xFEF9, 0x7F)]) [0x4D, 0x80]
    0x1002 0x03 0xFE20 [] false .run false = true := by decide

-- 95_test_vectors VA38
theorem test_add_psw : ends (start 0x02 0xFE20 false []) [0x88, 0x1E, 0x01]
    0x1003 0x02 0xFE20 [] false .run false = true := by decide

-- 95_test_vectors S1
theorem test_mulu : ends (start 0x02 0xFE20 false [(0xFEF8, 0x34), (0xFEF9, 0x12)]) [0x31, 0x88]
    0x1002 0x02 0xFE20 [(0xFEF8, 0xA8), (0xFEF9, 0x03)] false .run false = true := by decide

-- 95_test_vectors VM1
theorem test_mulu_max : ends (start 0x53 0xFE20 false [(0xFEF9, 0xFF), (0xFEF8, 0xFF)]) [0x31, 0x88]
    0x1002 0x53 0xFE20 [(0xFEF8, 0x01), (0xFEF9, 0xFE)] false .run false = true := by decide

-- 95_test_vectors S27
theorem test_divuw : ends (start 0x02 0xFE20 false [(0xFEF8, 0x34), (0xFEF9, 0x12), (0xFEFA, 0x10)]) [0x31, 0x82]
    0x1002 0x02 0xFE20 [(0xFEF8, 0x23), (0xFEF9, 0x01), (0xFEFA, 0x04)] false .run false = true := by decide

-- 95_test_vectors VM4
theorem test_divuw_by_zero : ends (start 0x53 0xFE20 false [(0xFEF8, 0x34), (0xFEF9, 0x12), (0xFEFA, 0x00)]) [0x31, 0x82]
    0x1002 0x53 0xFE20 [(0xFEF8, 0xFF), (0xFEF9, 0xFF), (0xFEFA, 0x34)] false .run false = true := by decide

-- 95_test_vectors S28
theorem test_inc : ends (start 0x02 0xFE20 false [(0xFEFB, 0x0F)]) [0x43]
    0x1001 0x12 0xFE20 [(0xFEFB, 0x10)] false .run false = true := by decide

-- 95_test_vectors VM17
theorem test_inc_psw : ends (start 0x02 0xFE20 false []) [0x81, 0x1E]
    0x1002 0x03 0xFE20 [] false .run false = true := by decide

-- 95_test_vectors S29
theorem test_dec : ends (start 0x02 0xFE20 false [(0xFE92, 0x01)]) [0x91, 0x92]
    0x1002 0x42 0xFE20 [(0xFE92, 0x00)] false .run false = true := by decide

-- 95_test_vectors VM13
theorem test_dec_wraps : ends (start 0x02 0xFE20 false [(0xFEF9, 0x00)]) [0x51]
    0x1001 0x12 0xFE20 [(0xFEF9, 0xFF)] false .run false = true := by decide

-- 95_test_vectors S30
theorem test_incw : ends (start 0x43 0xFE20 false [(0xFEFE, 0xFF), (0xFEFF, 0xFF)]) [0x86]
    0x1001 0x43 0xFE20 [(0xFEFE, 0x00), (0xFEFF, 0x00)] false .run false = true := by decide

-- 95_test_vectors S31
theorem test_decw : ends (start 0x02 0xFE20 false [(0xFEFC, 0x00), (0xFEFD, 0x00)]) [0x94]
    0x1001 0x02 0xFE20 [(0xFEFC, 0xFF), (0xFEFD, 0xFF)] false .run false = true := by decide

-- 95_test_vectors S32
theorem test_ror : ends (start 0x02 0xFE20 false [(0xFEF9, 0x01)]) [0x24]
    0x1001 0x03 0xFE20 [(0xFEF9, 0x80)] false .run false = true := by decide

-- 95_test_vectors S33
theorem test_rol : ends (start 0x02 0xFE20 false [(0xFEF9, 0x80)]) [0x26]
    0x1001 0x03 0xFE20 [(0xFEF9, 0x01)] false .run false = true := by decide

-- 95_test_vectors S34
theorem test_rorc : ends (start 0x02 0xFE20 false [(0xFEF9, 0x01)]) [0x25]
    0x1001 0x03 0xFE20 [(0xFEF9, 0x00)] false .run false = true := by decide

-- 95_test_vectors S35
theorem test_rolc : ends (start 0x03 0xFE20 false [(0xFEF9, 0x80)]) [0x27]
    0x1001 0x03 0xFE20 [(0xFEF9, 0x01)] false .run false = true := by decide

-- 95_test_vectors S36
theorem test_ror4 : ends (start 0x02 0xFE20 false [(0xFEF9, 0xA3), (0xFEFE, 0x40), (0xFEFF, 0xFE), (0xFE40, 0xC5)]) [0x31, 0x90]
    0x1002 0x02 0xFE20 [(0xFEF9, 0xA5), (0xFE40, 0x3C)] false .run false = true := by decide

-- 95_test_vectors S37
theorem test_rol4 : ends (start 0x02 0xFE20 false [(0xFEF9, 0x12), (0xFEFE, 0x40), (0xFEFF, 0xFE), (0xFE40, 0x48)]) [0x31, 0x80]
    0x1002 0x02 0xFE20 [(0xFEF9, 0x14), (0xFE40, 0x82)] false .run false = true := by decide

-- 95_test_vectors VR17
theorem test_adjba_row4 : ends (start 0x02 0xFE20 false [(0xFEF9, 0x9A)]) [0x61, 0x80]
    0x1002 0x53 0xFE20 [(0xFEF9, 0x00)] false .run false = true := by decide

-- 95_test_vectors VR19
theorem test_adjba_row6 : ends (start 0x13 0xFE20 false [(0xFEF9, 0x32)]) [0x61, 0x80]
    0x1002 0x03 0xFE20 [(0xFEF9, 0x98)] false .run false = true := by decide

-- 95_test_vectors VR26
theorem test_adjbs_row3 : ends (start 0x12 0xFE20 false [(0xFEF9, 0x19)]) [0x61, 0x90]
    0x1002 0x02 0xFE20 [(0xFEF9, 0x13)] false .run false = true := by decide

-- 95_test_vectors VR28
theorem test_adjbs_row4 : ends (start 0x13 0xFE20 false [(0xFEF9, 0xFF)]) [0x61, 0x90]
    0x1002 0x03 0xFE20 [(0xFEF9, 0x99)] false .run false = true := by decide

-- 95_test_vectors S40
theorem test_mov1_to_bit : ends (start 0x03 0xFE20 false [(0xFF03, 0x00)]) [0x71, 0x49, 0x03]
    0x1003 0x03 0xFE20 [(0xFF03, 0x10)] false .run false = true := by decide

-- 95_test_vectors VB6
theorem test_mov1_from_psw : ends (start 0x82 0xFE20 false []) [0x71, 0x74, 0x1E]
    0x1003 0x83 0xFE20 [] false .run false = true := by decide

-- 95_test_vectors VB14
theorem test_and1 : ends (start 0x03 0xFE20 false [(0xFEF9, 0xF7)]) [0x61, 0xBD]
    0x1002 0x02 0xFE20 [] false .run false = true := by decide

-- 95_test_vectors VB17
theorem test_or1 : ends (start 0x02 0xFE20 false [(0xFE40, 0x80)]) [0x71, 0x76, 0x40]
    0x1003 0x03 0xFE20 [] false .run false = true := by decide

-- 95_test_vectors S43
theorem test_xor1 : ends (start 0x03 0xFE20 false [(0xFEF9, 0x80)]) [0x61, 0xFF]
    0x1002 0x02 0xFE20 [] false .run false = true := by decide

-- 95_test_vectors S44
theorem test_set1 : ends (start 0x02 0xFE20 false [(0xFE55, 0x80)]) [0x1A, 0x55]
    0x1002 0x02 0xFE20 [(0xFE55, 0x82)] false .run false = true := by decide

-- 95_test_vectors VB30
theorem test_set1_psw2_discarded : ends (start 0x02 0xFE20 false []) [0x2A, 0x1E]
    0x1002 0x02 0xFE20 [] false .run false = true := by decide

-- 95_test_vectors S45
theorem test_clr1 : ends (start 0x02 0xFE20 false [(0xFF03, 0xFF)]) [0x71, 0x7B, 0x03]
    0x1003 0x02 0xFE20 [(0xFF03, 0x7F)] false .run false = true := by decide

-- 95_test_vectors VB36
theorem test_clr1_psw5 : ends (start 0x2A 0xFE20 false []) [0x5B, 0x1E]
    0x1002 0x0A 0xFE20 [] false .run false = true := by decide

-- 95_test_vectors VB38
theorem test_set1_cy : ends (start 0x02 0xFE20 false []) [0x20]
    0x1001 0x03 0xFE20 [] false .run false = true := by decide

-- 95_test_vectors VB39
theorem test_clr1_cy : ends (start 0x53 0xFE20 false []) [0x21]
    0x1001 0x52 0xFE20 [] false .run false = true := by decide

-- 95_test_vectors S46
theorem test_not1_cy : ends (start 0x02 0xFE20 false []) [0x01]
    0x1001 0x03 0xFE20 [] false .run false = true := by decide

-- 95_test_vectors S47
theorem test_call : ends (start 0x02 0xFE20 false []) [0x9A, 0x59, 0x30]
    0x3059 0x02 0xFE1E [(0xFE1F, 0x10), (0xFE1E, 0x03)] false .run false = true := by decide

-- 95_test_vectors S48
theorem test_callf : ends (start 0x02 0xFE20 false []) [0x4C, 0x2A]
    0x0C2A 0x02 0xFE1E [(0xFE1F, 0x10), (0xFE1E, 0x02)] false .run false = true := by decide

-- 95_test_vectors S49
theorem test_callt : ends (start 0x02 0xFE20 false [(0x40, 0x34), (0x41, 0x12)]) [0xC1]
    0x1234 0x02 0xFE1E [(0xFE1F, 0x10), (0xFE1E, 0x01)] false .run false = true := by decide

-- 95_test_vectors VC8
theorem test_brk : ends (start 0x83 0xFE20 false [(0x3E, 0x00), (0x3F, 0x40)]) [0xBF]
    0x4000 0x03 0xFE1D [(0xFE1F, 0x83), (0xFE1E, 0x10), (0xFE1D, 0x01)] false .run false = true := by decide

-- 95_test_vectors VC10
theorem test_ret : ends (start 0x02 0xFE1E false [(0xFE1E, 0x03), (0xFE1F, 0x10)]) [0xAF]
    0x1003 0x02 0xFE20 [] false .run false = true := by decide

-- 95_test_vectors VC11
theorem test_reti : ends (start 0x02 0xFE1D true [(0xFE1D, 0x01), (0xFE1E, 0x10), (0xFE1F, 0x83)]) [0x8F]
    0x1001 0x83 0xFE20 [] true .run false = true := by decide

-- 95_test_vectors VC13
theorem test_retb : ends (start 0x02 0xFE1D true [(0xFE1D, 0x01), (0xFE1E, 0x10), (0xFE1F, 0x83)]) [0x9F]
    0x1001 0x83 0xFE20 [] true .run true = true := by decide

-- 95_test_vectors S10
theorem test_push : ends (start 0x02 0xFE20 false [(0xFEFC, 0x34), (0xFEFD, 0x12)]) [0xB5]
    0x1001 0x02 0xFE1E [(0xFE1F, 0x12), (0xFE1E, 0x34)] false .run false = true := by decide

-- 95_test_vectors VC23
theorem test_push_into_registers : ends (start 0x02 0xFEFA false [(0xFEF8, 0x34), (0xFEF9, 0x12), (0xFEFA, 0x78), (0xFEFB, 0x56)]) [0xB1]
    0x1001 0x02 0xFEF8 [(0xFEF9, 0x12), (0xFEF8, 0x34), (0xFEF8, 0x34), (0xFEF9, 0x12)] false .run false = true := by decide

-- 95_test_vectors S51
theorem test_pop : ends (start 0x02 0xFE1E false [(0xFE1E, 0x34), (0xFE1F, 0x12)]) [0xB0]
    0x1001 0x02 0xFE20 [(0xFEF8, 0x34), (0xFEF9, 0x12)] false .run false = true := by decide

-- 95_test_vectors VC16
theorem test_pop_psw : ends (start 0x02 0xFE1F false [(0xFE1F, 0xFF)]) [0x23]
    0x1001 0xFB 0xFE20 [] true .run false = true := by decide

-- 95_test_vectors S52
theorem test_movw_sp : ends (start 0x02 0xFE20 false []) [0xEE, 0x1C, 0x1F, 0xFE]
    0x1004 0x02 0xFE1F [] false .run false = true := by decide

-- 95_test_vectors VJ1
theorem test_br_abs : ends (start 0x02 0xFE20 false []) [0x9B, 0x34, 0x12]
    0x1234 0x02 0xFE20 [] false .run false = true := by decide

-- 95_test_vectors VJ4
theorem test_br_rel_back : ends (start 0x02 0xFE20 false []) [0xFA, 0x80]
    0x0F82 0x02 0xFE20 [] false .run false = true := by decide

-- 95_test_vectors S53
theorem test_br_ax : ends (start 0x02 0xFE20 false [(0xFEF8, 0x68), (0xFEF9, 0x24)]) [0x31, 0x98]
    0x2468 0x02 0xFE20 [] false .run false = true := by decide

-- 95_test_vectors VJ8
theorem test_bc : ends (start 0x03 0xFE20 false []) [0x8D, 0x05]
    0x1007 0x03 0xFE20 [] false .run false = true := by decide

-- 95_test_vectors VJ10
theorem test_bnc : ends (start 0x52 0xFE20 false []) [0x9D, 0xFB]
    0x0FFD 0x52 0xFE20 [] false .run false = true := by decide

-- 95_test_vectors VJ12
theorem test_bz : ends (start 0x42 0xFE20 false []) [0xAD, 0x7F]
    0x1081 0x42 0xFE20 [] false .run false = true := by decide

-- 95_test_vectors VJ15
theorem test_bnz_not_taken : ends (start 0x42 0xFE20 false []) [0xBD, 0x80]
    0x1002 0x42 0xFE20 [] false .run false = true := by decide

-- 95_test_vectors VJ19
theorem test_bt : ends (start 0x02 0xFE20 false [(0xFEF9, 0x80)]) [0x31, 0x7E, 0xF0]
    0x0FF3 0x02 0xFE20 [] false .run false = true := by decide

-- 95_test_vectors VJ22
theorem test_bt_psw_not_taken : ends (start 0x42 0xFE20 false []) [0xFC, 0x1E, 0x10]
    0x1003 0x42 0xFE20 [] false .run false = true := by decide

-- 95_test_vectors VJ26
theorem test_bf : ends (start 0x02 0xFE20 false [(0xFF10, 0x7F)]) [0x31, 0x77, 0x10, 0xFC]
    0x1000 0x02 0xFE20 [] false .run false = true := by decide

-- 95_test_vectors VJ29
theorem test_bf_not_taken : ends (start 0x02 0xFE20 false [(0xFEFE, 0x40), (0xFEFF, 0xFE), (0xFE40, 0x01)]) [0x31, 0x87, 0x10]
    0x1003 0x02 0xFE20 [] false .run false = true := by decide

-- 95_test_vectors VJ34
theorem test_btclr_psw : ends (start 0x82 0xFE20 false []) [0x31, 0x71, 0x1E, 0x10]
    0x1014 0x02 0xFE20 [] false .run false = true := by decide

-- 95_test_vectors VJ31
theorem test_btclr_not_taken : ends (start 0x02 0xFE20 false [(0xFE40, 0xDF)]) [0x31, 0x51, 0x40, 0x10]
    0x1004 0x02 0xFE20 [(0xFE40, 0xDF)] false .run false = true := by decide

-- 95_test_vectors VJ43
theorem test_dbnz_psw : ends (start 0x03 0xFE20 false []) [0x04, 0x1E, 0x10]
    0x1013 0x02 0xFE20 [] false .run false = true := by decide

-- 95_test_vectors VJ38
theorem test_dbnz_wraps : ends (start 0x02 0xFE20 false [(0xFEFA, 0x00)]) [0x8A, 0x10]
    0x1012 0x02 0xFE20 [(0xFEFA, 0xFF)] false .run false = true := by decide

-- 95_test_vectors VK1
theorem test_sel_rb0 : ends (start 0xFB 0xFE20 false []) [0x61, 0xD0]
    0x1002 0xD3 0xFE20 [] false .run false = true := by decide

-- 95_test_vectors VK3
theorem test_sel_rb2 : ends (start 0x0A 0xFE20 false []) [0x61, 0xF0]
    0x1002 0x22 0xFE20 [] false .run false = true := by decide

-- 95_test_vectors VK6
theorem test_nop : ends (start 0x53 0xFE20 false []) [0x00]
    0x1001 0x53 0xFE20 [] false .run false = true := by decide

-- 95_test_vectors VK7
theorem test_ei : ends (start 0x02 0xFE20 false []) [0x7A, 0x1E]
    0x1002 0x82 0xFE20 [] true .run false = true := by decide

-- 95_test_vectors VK8
theorem test_di : ends (start 0xC3 0xFE20 false []) [0x7B, 0x1E]
    0x1002 0x43 0xFE20 [] true .run false = true := by decide

-- 95_test_vectors VK9
theorem test_halt : ends (start 0x02 0xFE20 false []) [0x71, 0x10]
    0x1002 0x02 0xFE20 [] false .halt false = true := by decide

-- 95_test_vectors VK10
theorem test_stop : ends (start 0x02 0xFE20 false []) [0x71, 0x00]
    0x1002 0x02 0xFE20 [] false .stop false = true := by decide
/-- AX after the 16-bit operations; their AC is a free value, so PSW is not compared (95_test_vectors S23 to S25). -/
def axAfter (i : Instr) (ax : Word) : Option (Word × Nat) :=
  match exec i (start 0x02 0xFE20 false [(0xFEF8, loByte ax), (0xFEF9, hiByte ax)]) with
  | .next t => some (pair t 0 .ax, t.freeCount)
  | _ => none

theorem test_addw : axAfter (.addwAxWord 0xABCD) 0x5433 = some (0x0000, 1) := by decide
theorem test_subw : axAfter (.subwAxWord 0xABCD) 0xABCC = some (0xFFFF, 1) := by decide
theorem test_cmpw : axAfter (.cmpwAxWord 0xABCD) 0xABCD = some (0xABCD, 1) := by decide

/-! Interrupts and reset (95_test_vectors section 3.11). -/

/-- The boundary of section 3.11: PC 1009H, SP FE20H; the low byte of each vector is 00H. `pend`, `mask`, `prio` are the
flag bytes, `nmi` the pending non-maskable source. -/
def boundary (psw pend mask prio : Byte) (nmi : Bool) : State :=
  { start psw 0xFE20 false [(0x0005, 0x50), (0x0007, 0x30), (0x0009, 0x38), (0xFF02, pend), (0xFF03, mask),
      (0xFF10, prio)] with
    cfg := product, pc := 0x1009, nmiPending := if nmi then 0x4 else 0x0 }

/-- PC, PSW, the three bytes stacked, the request byte, NMIS and mode after one step. -/
def entry (s : State) : Option (Addr × Byte × List Byte × Byte × Bool × Mode) :=
  match step s with
  | .next t => some (t.pc, t.psw, [0xFE1F, 0xFE1E, 0xFE1D].map t.mem.read, t.mem.read 0xFF02, t.nmis, t.mode)
  | _ => none

-- VI1
theorem test_low_priority_interrupt :
    entry (boundary 0x82 0x01 0x00 0x01 false) = some (0x3000, 0x02, [0x82, 0x10, 0x09], 0x00, false, .run) := by decide

-- VI6
theorem test_high_priority_interrupt :
    entry (boundary 0x80 0x01 0x00 0x00 false) = some (0x3000, 0x00, [0x80, 0x10, 0x09], 0x00, false, .run) := by decide

-- VI10
theorem test_high_before_low :
    entry (boundary 0x82 0x03 0x00 0x01 false) = some (0x3800, 0x00, [0x82, 0x10, 0x09], 0x01, false, .run) := by decide

-- VI8, VI12
theorem test_non_maskable_first :
    entry (boundary 0x02 0x01 0x00 0x01 true) = some (0x5000, 0x02, [0x02, 0x10, 0x09], 0x01, true, .run) := by decide

-- VI3, VI4, VI5, VI7, VI9
theorem test_not_acknowledged :
    [boundary 0x02 0x01 0x00 0x01 false, boundary 0x82 0x01 0x01 0x01 false, boundary 0x80 0x01 0x00 0x01 false,
      { boundary 0x82 0x01 0x00 0x01 false with hold := true },
      { boundary 0x82 0x01 0x00 0x01 true with nmis := true }].all (fun s => selected s == none) = true := by decide

-- VI13
theorem test_halt_released :
    entry { boundary 0x82 0x01 0x00 0x01 false with mode := .halt } =
      some (0x3000, 0x02, [0x82, 0x10, 0x09], 0x00, false, .run) := by decide

/-- VZ2. -/
theorem test_reset_vector :
    let s := start 0xFF 0xFE20 true [(0x0000, 0x34), (0x0001, 0x12), (0xFE40, 0x77)]
    let t := s.resetInput { sp := 0x0000, ram := [(0xFE50, 0x55)], nmiPending := 0 }
    t.pc = 0x1234 ∧ t.psw = 0x02 ∧ t.nmis = false ∧ t.mem = [(0x0000, 0x34), (0x0001, 0x12), (0xFE50, 0x55)] := by decide

/-- A store of what an unlisted byte reads as leaves no entry. -/
theorem test_memory_canonical :
    let m := Memory.writeAll [] [(0x20, 0x01), (0x10, 0x02), (0x30, 0x03), (0x20, 0x00)]
    m = [(0x10, 0x02), (0x30, 0x03)] ∧ m.wf = true := by decide

/-! What can stop the machine (60_exceptions R401). -/

/-- The fault of the instruction at 1000H. -/
def faultOf (s : State) (bytes : List Byte) : Option Fault :=
  match step (placeBytes s s.pc bytes) with
  | .fault f => some f
  | _ => none

-- VT35, VT36, VT37, VW13, VW17, VA22, VC24, VR12; sfr-offset D0H; fetch of an SFR
theorem test_faults :
    let s := start 0x02 0xFE20 false [(0xFEFE, 0x10), (0xFEFF, 0xFF)]
    faultOf s [0x9E, 0x00, 0x01] = some (.notWritable 0x1000 0x0100) ∧
    faultOf s [0x8E, 0x00, 0x80] = some (.unallocated 0x1000 0x8000) ∧
    faultOf s [0xF4, 0x40] = some (.sfrUnallocated 0x1000 0xFF40) ∧
    faultOf s [0x02, 0x01, 0xFE] = some (.oddWord 0x1000 0xFE01) ∧
    faultOf s [0xC0] = some (.undefinedOpcode 0x1000 [0xC0]) ∧
    faultOf s [0x61, 0x19] = some (.undefinedOpcode 0x1000 [0x61, 0x19]) ∧
    faultOf { s with sp := 0x0001 } [0xB1] = some (.stackOutside 0x1000 0x0000) ∧
    faultOf s [0x31, 0x90] = some (.rotateSfr 0x1000 0xFF10) ∧
    faultOf s [0xF4, 0xD0] = some (.sfrOffset 0x1000 0xFFD0) ∧
    faultOf s [0xA9, 0x10] = some (.sfrUnit 0x1000 0xFF10) ∧
    faultOf { s with pc := 0x8000 } [] = some (.unallocated 0x8000 0x8000) := by decide

/-! The host's interface: a row of opcode_table.json run as the first instruction after reset. -/

theorem test_fetch_word :
    step (State.reset.withFetchWord 16 0x7110) = .next { State.reset.withFetchWord 16 0x7110 with pc := 0x0002, mode := .halt } :=
  rfl

/-! What a product fixes: device SFRs (20_memory R79), unassigned codes (92 D6), `HoldSet` (92 D17). -/

/-- XCH A,sfr of a device SFR reads it, then writes it, and A holds what the read returned. -/
theorem test_device_sfr_sees_read_then_write :
    ∃ t, exec (.xchASfr 0x20) { start 0x02 0xFE20 false [(0xFEF9, 0x99), (0xFF20, 0x11)] with cfg := special } = .next t ∧
      t.sfrLog = [.write 0xFF20 0x99, .read 0xFF20] ∧
      ∃ m : Memory, t.mem = m.write 0xFEF9 (Config.sfrRead [] 0xFF20) ∧ m.read 0xFF20 = 0x99 :=
  ⟨_, rfl, rfl, _, rfl, rfl⟩

/-- The code 06H runs as NOP where the product decodes it so, and NOP holds interrupts where its `HoldSet` says so. -/
theorem test_product_code_and_hold :
    ends { start 0x02 0xFE20 false [] with cfg := special } [0x06] 0x1001 0x02 0xFE20 [] true .run false = true ∧
    ends (start 0x02 0xFE20 false []) [0x00] 0x1001 0x02 0xFE20 [] false .run false = true := by decide

/-! Witnesses: states and operands that meet all hypotheses of an obligation. -/

/-- A small state: HL FE40H, DE FE41H, B 03H, C 02H, A 99H, (FE40H) 55H, (FE42H) 77H. -/
def small : State :=
  start 0x02 0xFE20 false [(0xFEF9, 0x99), (0xFEFA, 0x02), (0xFEFB, 0x03), (0xFEFC, 0x41), (0xFEFD, 0xFE), (0xFEFE, 0x40),
    (0xFEFF, 0xFE), (0xFE40, 0x55), (0xFE42, 0x77)]

theorem witness_DecodeEncode : (Instr.movAR .c).wf = true ∧ (Instr.set1PswBit 6).wf = true := by decide

theorem witness_EncodeDecode : decode [0x7A, 0x1E, 0x55] = .ok (.ei, [0x55]) := rfl

theorem witness_NamedRowsAgreeWithGeneralRows : bitOf small.psw 2 = false := by decide

/-- The state with the product `special`. -/
def smallSpecial : State := { small with cfg := special }

theorem witness_BytesAreStoredAndRead :
    Readable small .byte 0xFE40 ∧ Writable small .byte 0xFE40 ∧ Readable small .bit 0xFF1E ∧ Writable small .word 0xFF1C ∧
      isDevice small.cfg 0xFF20 = false ∧ isDevice special 0xFF20 = true ∧ Readable smallSpecial .byte 0xFF20 ∧
      Writable smallSpecial .byte 0xFF20 := ⟨rfl, rfl, rfl, rfl, rfl, rfl, rfl, rfl⟩

theorem witness_WordsAreLittleEndian :
    Readable small .word 0xFEFE ∧ Readable small .word (0xFEFE + 1) ∧ Writable small .word 0xFF1C ∧
      Writable small .word (0xFF1C + 1) ∧ isDevice small.cfg 0xFF1E = false ∧ isDevice small.cfg (0xFF1E + 1) = false :=
  ⟨rfl, rfl, rfl, rfl, rfl, rfl⟩

theorem witness_EffectiveAddresses :
    (0x20 ≤ (0x20 : Byte).toNat ∧ (effAddr small (.saddr 0x20)).toNat = 0xFE20) ∧
      ((0x1F : Byte).toNat < 0x20 ∧ (effAddr small (.saddr 0x1F)).toNat = 0xFF1F) := by decide

theorem witness_AccessibleExactly :
    Readable small .byte 0xFF02 ∧ Readable small .byte 0x7FFF ∧ ¬Readable small .byte 0x8000 ∧ ¬Writable small .byte 0x7FFF ∧
      Writable small .byte 0xFB00 ∧ ¬Writable small .word 0xFF02 ∧
      fetchFault smallSpecial 0xFEDF = none ∧ fetchFault smallSpecial 0xFEE0 = some (.notExecutable 0x1000 0xFEE0) ∧
      fetchFault smallSpecial 0x7FFF = none ∧ fetchFault smallSpecial 0xFF20 = some (.notExecutable 0x1000 0xFF20) := by
  refine ⟨rfl, rfl, ?_, ?_, rfl, ?_, rfl, rfl, rfl, rfl⟩ <;> intro h <;> cases h

theorem witness_MovMemoryForms :
    (Named (.sfr 0xCF) ∧ Named (.sfr 0xE0) ∧ Named (.sfr 0x02) ∧ Readable small .byte (effAddr small (.sfr 0x02)) ∧
      Writable small .byte (effAddr small (.sfr 0x02))) ∧
    (Named .hlB ∧ Readable small .byte (effAddr small .hlB) ∧ Writable small .byte (effAddr small .hlB)) ∧
    Writable small .byte (effAddr small (.saddr 0x1E)) ∧ Writable small .byte (effAddr small (.saddr 0x20)) := by
  refine ⟨⟨?_, ?_, ?_, rfl, rfl⟩, ⟨trivial, rfl, rfl⟩, rfl, rfl⟩ <;> simp only [Named] <;> decide

theorem witness_XchForms :
    Named .de ∧ Readable small .byte (effAddr small .de) ∧ Writable small .byte (effAddr small .de) := ⟨trivial, rfl, rfl⟩

theorem witness_MovwMemoryForms :
    (movwLoad (.abs 0xFE40) = some (.movwAxAbs 0xFE40) ∧ Named (.abs 0xFE40) ∧ ReadableWord small 0xFE40) ∧
    (movwStoreAx (.sfr 0x1C) = some (.movwSfrpAx 0x1C) ∧ Named (.sfr 0x1C) ∧ WritableWord small (effAddr small (.sfr 0x1C))) ∧
    (movwStoreWord 0x1234 (.saddr 0xFE) = some (.movwSaddrpWord 0xFE 0x1234) ∧ Named (.saddr 0xFE) ∧
      WritableWord small (effAddr small (.saddr 0xFE))) := by
  refine ⟨⟨rfl, trivial, rfl, rfl, rfl⟩, ⟨rfl, ?_, rfl, rfl, rfl⟩, rfl, trivial, rfl, rfl, rfl⟩
  simp only [Named]; decide

theorem witness_EightBitOperations :
    (aluMemory .addc .hlC = some .addcAHlC ∧ Readable small .byte (effAddr small .hlC)) ∧
    (Readable small .byte (effAddr small (.saddr 0x1E)) ∧
      (AluOp.add = .cmp ∨ Writable small .byte (effAddr small (.saddr 0x1E)))) ∧
    (Readable small .byte (effAddr small (.saddr 0x20)) ∧
      (AluOp.cmp = .cmp ∨ Writable small .byte (effAddr small (.saddr 0x20)))) :=
  ⟨⟨rfl, rfl⟩, ⟨rfl, .inr rfl⟩, rfl, .inl rfl⟩

theorem witness_FlagsAreCarriesOfTheAdder :
    (AluOp.addc = .add ∨ AluOp.addc = .addc) ∧ (AluOp.cmp = .sub ∨ AluOp.cmp = .subc ∨ AluOp.cmp = .cmp) ∧
      (AluOp.xor = .and ∨ AluOp.xor = .or ∨ AluOp.xor = .xor) := by decide

theorem witness_MultiplyAndDivide :
    reg small (bank small) .c ≠ 0 ∧ reg (start 0x02 0xFE20 false []) (bank (start 0x02 0xFE20 false [])) .c = 0 := by decide

theorem witness_IncrementAndDecrementBytes :
    Readable small .byte (effAddr small (.saddr 0x40)) ∧ Writable small .byte (effAddr small (.saddr 0x40)) := ⟨rfl, rfl⟩

/-- HL FEFFH, the last address below the SFR area, and HL FF00H, the first in it. -/
theorem witness_DigitRotates :
    (let s := start 0x02 0xFE20 false [(0xFEFE, 0xFF), (0xFEFF, 0xFE)]
     let ea := pair s (bank s) .hl
     ea.toNat = 0xFEFF ∧ ea.toNat < 0xFF00 ∧ Readable s .byte ea ∧ Writable s .byte ea) ∧
    (let s := start 0x02 0xFE20 false [(0xFEFF, 0xFF)]
     0xFF00 ≤ (pair s (bank s) .hl).toNat) := by
  refine ⟨⟨by decide, by decide, rfl, rfl⟩, by decide⟩

/-- The operands of the six rows of ADJBA's table, from PSW and A. -/
def adjustRow (psw a : Byte) : Nat × Nat × Bool × Bool :=
  let s := start psw 0xFE20 false [(0xFEF9, a)]
  ((reg s (bank s) .a).toNat % 16, (reg s (bank s) .a).toNat / 16, bitOf s.psw 0, bitOf s.psw 4)

theorem witness_AdjustAfterAddition :
    adjustRow 0x02 0x99 = (9, 9, false, false) ∧ adjustRow 0x02 0xA0 = (0, 10, false, false) ∧
    adjustRow 0x03 0x09 = (9, 0, true, false) ∧ adjustRow 0x02 0x8A = (10, 8, false, false) ∧
    adjustRow 0x02 0x9A = (10, 9, false, false) ∧ adjustRow 0x12 0x9F = (15, 9, false, true) ∧
    adjustRow 0x12 0xA0 = (0, 10, false, true) ∧ adjustRow 0x13 0x32 = (2, 3, true, true) := by decide

theorem witness_DecimalArithmeticIsRight : IsBcd (reg small (bank small) .a) ∧ IsBcd 0x90 := by
  unfold IsBcd; decide

theorem witness_BitsIntoCarry :
    (BitPlace.sfr 0x10).Named ∧ Readable small .bit ((BitPlace.sfr 0x10).addr small) ∧ Readable small .bit (BitPlace.hl.addr small) := by
  refine ⟨?_, rfl, rfl⟩
  simp only [BitPlace.Named]; decide

theorem witness_BitsWritten :
    (BitPlace.saddr 0x1E).Named ∧ Readable small .bit ((BitPlace.saddr 0x1E).addr small) ∧
      Writable small .bit ((BitPlace.saddr 0x1E).addr small) := ⟨trivial, rfl, rfl⟩

theorem witness_Calls :
    StackRoom small 2 ∧ Readable small .word (0x0040 + 2 * (0x1F : BitVec 5).setWidth 16) ∧
      Readable small .word (0x0040 + 2 * (0x1F : BitVec 5).setWidth 16 + 1) := by
  refine ⟨?_, rfl, rfl⟩
  unfold StackRoom; decide

theorem witness_BrkEntersHandler :
    StackRoom small 3 ∧ Readable small .word 0x003E ∧ Readable small .word 0x003F := by
  refine ⟨?_, rfl, rfl⟩
  unfold StackRoom; decide

/-- Two and three bytes at the top of the stack, up to FEFFH. -/
theorem witness_Returns : StackHas { small with sp := 0xFEFE } 2 ∧ StackHas { small with sp := 0xFEFD } 3 := by
  unfold StackHas; decide

theorem witness_PushAndPop :
    StackRoom { small with sp := 0xFB01 } 1 ∧ StackRoom { small with sp := 0xFB02 } 2 ∧
      StackHas { small with sp := 0xFEFF } 1 ∧ StackHas { small with sp := 0xFEFE } 2 := by
  unfold StackHas StackRoom; decide

theorem witness_RetbUndoesBrk :
    StackRoom small 3 ∧ Readable small .word 0x003E ∧ Readable small .word 0x003F ∧ bitOf small.psw 2 = false := by
  refine ⟨?_, rfl, rfl, rfl⟩
  unfold StackRoom; decide

/-- SP FF00H: the pair is pushed onto the registers H and L of bank 0. -/
theorem witness_PopUndoesPush : StackRoom { small with sp := 0xFF00 } 2 := by
  unfold StackRoom; decide

theorem witness_BranchesOnBits :
    (BitPlace.psw).Named ∧ Readable small .bit (BitPlace.psw.addr small) ∧ (BitPlace.sfr 0xE0).Named ∧
      (BitPlace.sfr 0x20).Named ∧ Readable small .bit ((BitPlace.sfr 0x20).addr small) := by
  refine ⟨trivial, rfl, ?_, ?_, rfl⟩ <;> simp only [BitPlace.Named] <;> decide

theorem witness_TestAndClear :
    BitPlace.hl.Named ∧ Readable small .bit (BitPlace.hl.addr small) ∧
    ((valueAt small (BitPlace.hl.addr small)).getLsbD (4 : BitVec 3).toNat = true ∧ Writable small .bit (BitPlace.hl.addr small)) ∧
    (valueAt small (BitPlace.hl.addr small)).getLsbD (5 : BitVec 3).toNat = false := ⟨trivial, rfl, ⟨rfl, rfl⟩, rfl⟩

theorem witness_DecrementAndBranch :
    Readable small .byte (effAddr small (.saddr 0x1E)) ∧ Writable small .byte (effAddr small (.saddr 0x1E)) := ⟨rfl, rfl⟩

theorem witness_AcknowledgedSource :
    selected small = none ∧ selected (boundary 0x82 0x03 0x00 0x01 false) = product.sources[2]? := by decide

theorem witness_InterruptAcknowledgement :
    (let s := boundary 0x02 0x00 0x00 0x00 true
     ∃ src, selected s = some src ∧ StackRoom s 3 ∧ src.vector.toNat ≤ 0x003C ∧ Readable s .word src.vector ∧ Readable s .word (src.vector + 1) ∧
       src.kind = .nonMaskable) ∧
    (let s := boundary 0x82 0x02 0x00 0x02 false
     ∃ src request mask priority, selected s = some src ∧ StackRoom s 3 ∧ src.vector.toNat ≤ 0x003C ∧
       Readable s .word src.vector ∧
       Readable s .word (src.vector + 1) ∧ src.kind = .maskable request mask priority ∧
       inSfrArea request.addr = true ∧ isControl request.addr = false ∧ inSfrArea priority.addr = true ∧
       isControl priority.addr = false) := by
  refine ⟨⟨_, rfl, ?_, by decide, rfl, rfl, rfl⟩, ⟨_, _, _, _, rfl, ?_, by decide, rfl, rfl, rfl, rfl, rfl, rfl, rfl⟩⟩ <;>
    (unfold StackRoom; decide)

/-- In Halt with IE = 0 a request of an unmasked source, and without one; in Stop the source does not count. -/
theorem witness_StandbyWaitsForRelease :
    (let s := { boundary 0x02 0x01 0x00 0x00 false with mode := .halt }
     s.mode ≠ .run ∧ selected s = none ∧
       ∃ src ∈ s.cfg.sources, wakes s src = true ∧ requested s src = true ∧ unmasked s src = true) ∧
    (let s := { boundary 0x82 0x01 0x00 0x00 false with mode := .stop }
     s.mode ≠ .run ∧ selected s = none ∧
       ∀ src ∈ s.cfg.sources, ¬(wakes s src = true ∧ requested s src = true ∧ unmasked s src = true)) := by decide

theorem witness_ResetInput :
    let s := boundary 0x82 0x01 0x00 0x00 false
    let v : ResetValues := { sp := 0xFE20, ram := [(0xFE50, 0x55)], nmiPending := 0 }
    s.cfg.ok = true ∧ v.ram.wf = true ∧ ramAtReset s.cfg 0xFE50 = true ∧ ramAtReset s.cfg 0xFEFF = true ∧
      keptAtReset s.cfg 0x0000 = true ∧ keptAtReset s.cfg 0x7FFF = true ∧ s.cfg.sfrs ≠ [] := by decide

theorem witness_StepRunsDecoded :
    (let s := placeBytes small 0x1000 [0x0D, 0x01]
     selected s = none ∧ s.mode = .run ∧ decode (fetchWindow s) = .ok (.addAImm 0x01, [0x00, 0x00]) ∧
       (Instr.addAImm 0x01).wf = true ∧ s.cfg.moreHold = [] ∧ ∃ t, exec (.addAImm 0x01) s = .next t) ∧
    (let s := placeBytes smallSpecial 0x1000 [0x06]
     selected s = none ∧ s.mode = .run ∧ decode (fetchWindow s) = .error (.undefined [0x06]) ∧
       aliasOf s.cfg [0x06] = some [0x00] ∧
       decode ([0x00] ++ (fetchWindow s).drop [(0x06 : Byte)].length) = .ok (.nop, [0x00, 0x00, 0x00])) ∧
    ∃ f, exec (.movAAbs 0x8000) small = .fault f :=
  ⟨⟨by decide, rfl, rfl, rfl, rfl, _, rfl⟩, ⟨by decide, rfl, rfl, rfl, rfl⟩, _, rfl⟩

/-- A one-byte instruction in the last byte of the region 0000H-7FFFH, where no second byte can be fetched. -/
theorem witness_StepRunsEncodedBytes :
    let s := placeBytes { small with pc := 0x7FFF } 0x7FFF [0x62]
    (Instr.movAR .c).wf = true ∧ selected s = none ∧ s.mode = .run ∧
      ∀ k < (Instr.movAR .c).length, fetchFault s (s.pc + BitVec.ofNat 16 k) = none ∧
        byteAt s (s.pc + BitVec.ofNat 16 k) = (encode (.movAR .c)).getD k 0 := by decide

theorem witness_StepKeepsInvariant : StateInv small ∧ ∃ t, step small = .next t := by
  refine ⟨?_, ⟨_, rfl⟩⟩
  unfold StateInv; decide

theorem witness_EnvironmentKeepsInvariant : StateInv (boundary 0x82 0x01 0x00 0x00 false) := by
  unfold StateInv; decide

theorem witness_HoldAfterHoldSetOnly :
    (Instr.popPsw.wf = true ∧ ∃ t, exec .popPsw { small with sp := 0xFE1F } = .next t) ∧
      (Instr.nop.wf = true ∧ ∃ t, exec .nop small = .next t) ∧
      (selected smallSpecial = none ∧ smallSpecial.mode = .run ∧ fetch smallSpecial = .ok .nop ∧
        ∃ t, step smallSpecial = .next t) := ⟨⟨rfl, _, rfl⟩, ⟨rfl, _, rfl⟩, by decide, rfl, rfl, _, rfl⟩

theorem witness_HiddenStateChangesOnlyAsNamed :
    (∃ t, exec .reti { small with sp := 0xFE1D } = .next t) ∧ ∃ t, exec .halt small = .next t := ⟨⟨_, rfl⟩, _, rfl⟩

theorem witness_PcMovesPastInstruction :
    setsPc (.movwSpWord 0xFE20) = false ∧ ∃ t, exec (.movwSpWord 0xFE20) small = .next t := ⟨rfl, _, rfl⟩

/-- A product with read-only SFRs, a write-only one and a write-only region, for the direction faults. -/
def oneWay : Config :=
  { Config.fixture with
    regions := [{ lo := 0x8000, hi := 0x8FFF, kind := .external, readable := false, writable := true, executable := false }]
    sfrs := [{ Config.plainSfr 0xFF10 with writable := false }, { Config.plainSfr 0xFF30 with readable := false }, { Config.plainSfr 0xFF31 with writable := false },
      { Config.plainSfr 0xFF32 with bitUnit := false }] }

/-- The state with the product `oneWay`, and 80H at FF10H. -/
def smallOneWay : State := { small with cfg := oneWay, mem := small.mem.write 0xFF10 0x80 }

theorem witness_AccessFaults_operands :
    (0xD0 ≤ (0xD0 : Byte).toNat ∧ (0xDF : Byte).toNat ≤ 0xDF) ∧
    (movwLoad (.abs 0xFE01) = some (.movwAxAbs 0xFE01) ∧ Named (.abs 0xFE01) ∧
      (effAddr small (.abs 0xFE01)).getLsbD 0 = true) ∧
    (movwStoreWord 0x1234 (.saddr 0x21) = some (.movwSaddrpWord 0x21 0x1234) ∧ Named (.saddr 0x21) ∧
      (effAddr small (.saddr 0x21)).getLsbD 0 = true) ∧
    (movwLoad (.saddr 0x1E) = some (.movwAxSaddrp 0x1E) ∧ (effAddr small (.saddr 0x1E)).getLsbD 0 = false ∧
      Readable small .word (effAddr small (.saddr 0x1E)) ∧
      checkRead small .word (effAddr small (.saddr 0x1E) + 1) = .error (.sfrUnallocated 0x1000 0xFF1F)) ∧
    (movwStoreAx (.abs 0x7FFE) = some (.movwAbsAx 0x7FFE) ∧ (effAddr small (.abs 0x7FFE)).getLsbD 0 = false ∧
      checkWrite small .word (effAddr small (.abs 0x7FFE)) = .error (.notWritable 0x1000 0x7FFE)) ∧
    checkRead small .byte (effAddr small (.abs 0x8000)) = .error (.unallocated 0x1000 0x8000) ∧
    (checkWrite small .byte (effAddr small (.abs 0x7FFF)) = .error (.notWritable 0x1000 0x7FFF) ∧
      Readable small .byte (effAddr small (.abs 0x7FFF))) ∧
    (movStoreImm 0x55 (.saddr 0x1F) = some (.movSaddrImm 0x1F 0x55) ∧
      checkWrite small .byte (effAddr small (.saddr 0x1F)) = .error (.sfrUnallocated 0x1000 0xFF1F) ∧
      checkRead small .byte (effAddr small (.saddr 0x1F)) = .error (.sfrUnallocated 0x1000 0xFF1F)) ∧
    (Readable smallOneWay .byte (effAddr smallOneWay (.saddr 0x10)) ∧
      checkWrite smallOneWay .byte (effAddr smallOneWay (.saddr 0x10)) = .error (.notWritable 0x1000 0xFF10)) :=
  ⟨by decide, ⟨rfl, trivial, rfl⟩, ⟨rfl, trivial, rfl⟩, ⟨rfl, rfl, rfl, rfl⟩, ⟨rfl, rfl, rfl⟩, rfl, ⟨rfl, rfl⟩,
    ⟨rfl, rfl, rfl⟩, rfl, rfl⟩

theorem witness_AccessFaults_digits_and_bits :
    (let s := start 0x02 0xFE20 false [(0xFEFE, 0xFF), (0xFEFF, 0x7F)]
     (effAddr s .hl).toNat < 0xFF00 ∧ Readable s .byte (effAddr s .hl) ∧
       checkWrite s .byte (effAddr s .hl) = .error (.notWritable 0x1000 0x7FFF)) ∧
    (let s := start 0x02 0xFE20 false [(0xFEFF, 0x80)]
     (effAddr s .hl).toNat < 0xFF00 ∧ checkRead s .byte (effAddr s .hl) = .error (.unallocated 0x1000 0x8000) ∧
       BitPlace.hl.Named ∧ checkRead s .bit (BitPlace.hl.addr s) = .error (.unallocated 0x1000 0x8000)) ∧
    ((BitPlace.saddr 0x10).Named ∧ Readable smallOneWay .bit ((BitPlace.saddr 0x10).addr smallOneWay) ∧
      checkWrite smallOneWay .bit ((BitPlace.saddr 0x10).addr smallOneWay) = .error (.notWritable 0x1000 0xFF10) ∧
      (valueAt smallOneWay ((BitPlace.saddr 0x10).addr smallOneWay)).getLsbD (7 : BitVec 3).toNat = true) :=
  ⟨⟨by decide, rfl, rfl⟩, ⟨by decide, rfl, trivial, rfl⟩, trivial, rfl, rfl, rfl⟩

/-- SP at the ends of the internal high-speed RAM, FB00H to FEFFH. -/
theorem witness_AccessFaults_stack :
    inIhram small.cfg (({ small with sp := 0xFB00 } : State).sp - 1) = false ∧
    (inIhram small.cfg (({ small with sp := 0xFB01 } : State).sp - 1) = true ∧
      inIhram small.cfg (({ small with sp := 0xFB01 } : State).sp - 2) = false) ∧
    (StackRoom { small with sp := 0xFB02 } 2 ∧ inIhram small.cfg (({ small with sp := 0xFB02 } : State).sp - 3) = false) ∧
    inIhram small.cfg ({ small with sp := 0xFF00 } : State).sp = false ∧
    (inIhram small.cfg ({ small with sp := 0xFEFF } : State).sp = true ∧
      inIhram small.cfg (({ small with sp := 0xFEFF } : State).sp + 1) = false) ∧
    (StackHas { small with sp := 0xFEFE } 2 ∧ inIhram small.cfg (({ small with sp := 0xFEFE } : State).sp + 2) = false) := by
  unfold StackRoom StackHas; decide

theorem witness_FaultsNameTheirReason :
    let s := { small with cfg := oneWay }
    (isControl 0xFF1F = false ∧ inSfrArea 0xFF1F = true ∧ sfrAt s.cfg 0xFF1F = none) ∧
    ((sfrAt s.cfg 0xFF30).map (·.readable) = some false ∧ (sfrAt s.cfg 0xFF31).map (·.writable) = some false ∧
      (sfrAt s.cfg 0xFF32).map (fun f => (f.readable, f.writable, sfrAllows f .bit)) = some (true, true, false) ∧
      inSfrArea 0xFF30 = true ∧ inSfrArea 0xFF31 = true ∧ inSfrArea 0xFF32 = true ∧ isControl 0xFF30 = false) ∧
    (inSfrArea 0xFAFF = false ∧ inIhram s.cfg 0xFAFF = false ∧ regionAt s.cfg 0xFAFF = none) ∧
    (inSfrArea 0x8FFF = false ∧ inIhram s.cfg 0x8FFF = false ∧ (regionAt s.cfg 0x8FFF).map (·.readable) = some false) ∧
    (inSfrArea 0x7FFF = false ∧ inIhram small.cfg 0x7FFF = false ∧
      (regionAt small.cfg 0x7FFF).map (·.writable) = some false) := by decide

theorem witness_FetchFaults :
    (let s := { small with pc := 0x8000 }
     (Instr.nop).wf = true ∧ 0 < (Instr.nop).length ∧ selected s = none ∧ s.mode = .run ∧
       fetchFault s (s.pc + BitVec.ofNat 16 0) = some (.unallocated 0x8000 0x8000)) ∧
    (let s := placeBytes { small with pc := 0x7FFD } 0x7FFD [0xEE, 0x40, 0xCD]
     let i := Instr.movwSaddrpWord 0x40 0xABCD
     i.wf = true ∧ 3 < i.length ∧ selected s = none ∧ s.mode = .run ∧
       (∀ j < 3, fetchFault s (s.pc + BitVec.ofNat 16 j) = none ∧
         byteAt s (s.pc + BitVec.ofNat 16 j) = (encode i).getD j 0) ∧
       fetchFault s (s.pc + BitVec.ofNat 16 3) = some (.unallocated 0x7FFD 0x8000)) ∧
    (let s := placeBytes small 0x1000 [0x06]
     selected s = none ∧ s.mode = .run ∧ fetchFault s s.pc = none ∧ undefinedFirst (byteAt s s.pc) = true ∧
       aliasOf s.cfg [byteAt s s.pc] = none) ∧
    (let s := placeBytes small 0x1000 [0x71, 0x20]
     selected s = none ∧ s.mode = .run ∧ fetchFault s s.pc = none ∧ fetchFault s (s.pc + 1) = none ∧
       byteAt s s.pc = 0x71 ∧ definedAfter71 (byteAt s (s.pc + 1)) = false ∧
       aliasOf s.cfg [byteAt s s.pc, byteAt s (s.pc + 1)] = none) := by decide

end Sys2Proof.Tests
end

section
/-! SUPPORT. What every instruction leaves when it answers a next state, said once: which parts of the state that no
address names it changes, where PC ends, and that the invariant is kept. -/

namespace Sys2Proof.Machine

variable {i : Instr} {s t u : State} {m : MemOperand} {len : Addr} {hold : Bool}

/-! Instructions that end behind their own encoding. -/

theorem Kept.advanced (h : Kept s u) : Advanced s (advance u len hold) len hold := ⟨u, h, rfl⟩

theorem advanced_of_next (ha : Advanced s u len hold) (h : (Host.Outcome.next u : Result) = .next t) :
    Advanced s t len hold := by
  obtain rfl : u = t := by injection h
  exact ha

theorem kept_setIe (s : State) (b : Bool) : Kept s (withPsw s (withBit s.psw ieBit b)) :=
  kept_withPsw _ _ (by rw [bitOf_withBit, if_neg (by decide)])

theorem kept_selectBank (s : State) (hi lo : Bool) : Kept s (withPsw s (withBit (withBit s.psw 5 hi) 3 lo)) :=
  kept_withPsw _ _ (by rw [bitOf_withBit, if_neg (by decide), bitOf_withBit, if_neg (by decide)])

/-- The free counter has no part in what is kept. -/
theorem aluW_advanced (e : Word × FlagUpdate) (stores : Bool) (len : Addr) (s : State) :
    Advanced s (aluW e stores len s) len false := by
  obtain ⟨u, hu, he⟩ := aluW_kept e stores len s
  exact ⟨{ u with freeCount := s.freeCount + 1 }, hu, he.symm⟩

theorem pushPsw_inv (h : execPushPsw s = .next t) : Advanced s t 1 false := by
  simp only [execPushPsw, outcome_eq_next, bind_eq_ok, pure_eq_ok] at h
  obtain ⟨u, hu, rfl⟩ := h
  exact (kept_of_push8 hu).advanced

theorem pushRp_inv {p : RegPair} (h : execPushRp p s = .next t) : Advanced s t 1 false := by
  simp only [execPushRp, outcome_eq_next, bind_eq_ok, pure_eq_ok] at h
  obtain ⟨u, hu, rfl⟩ := h
  exact (kept_of_push16 hu).advanced

theorem popPsw_inv (h : execPopPsw s = .next t) : Advanced s t 1 true := by
  simp only [execPopPsw, outcome_eq_next, bind_eq_ok, pure_eq_ok, Prod.exists] at h
  obtain ⟨v, u, hu, rfl⟩ := h
  exact ((kept_of_pop8 hu).trans (kept_setPsw ..)).advanced

theorem popRp_inv {p : RegPair} (h : execPopRp p s = .next t) : Advanced s t 1 false := by
  simp only [execPopRp, outcome_eq_next, bind_eq_ok, pure_eq_ok, Prod.exists] at h
  obtain ⟨v, u, hu, rfl⟩ := h
  exact ((kept_of_pop16 hu).trans (kept_setPair ..)).advanced

/-! Instructions that set PC. -/

theorem jumped_of_next (hj : Jumped s u) (h : (Host.Outcome.next u : Result) = .next t) : Jumped s t := by
  obtain rfl : u = t := by injection h
  exact hj

theorem Kept.jumped {p : Addr} (h : Kept s u) : Jumped s (jump u p) := ⟨u, p, h, rfl⟩

theorem call_inv {a : Addr} (h : execCall a s = .next t) : Jumped s t :=
  callTo_inv (fun u a w hw => by cases hw; exact Kept.refl u) h

theorem callf_inv {f : BitVec 11} (h : execCallf f s = .next t) : Jumped s t :=
  callTo_inv (fun u a w hw => by cases hw; exact Kept.refl u) h

theorem callt_inv {e : BitVec 5} (h : execCallt e s = .next t) : Jumped s t :=
  callTo_inv (fun _ _ _ hw => kept_of_load16 hw) h

theorem ret_inv (h : execRet s = .next t) : Jumped s t := by
  simp only [execRet, outcome_eq_next, bind_eq_ok, pure_eq_ok, Prod.exists] at h
  obtain ⟨p, u, hu, rfl⟩ := h
  exact (kept_of_pop16 hu).jumped

theorem brk_inv (h : execBrk s = .next t) : Jumped s t := by
  obtain ⟨u, w, p, hu, hw, rfl⟩ := enterVector_inv (outcome_eq_next.1 h)
  exact (hu.trans hw).jumped

theorem retb_inv (h : execRetb s = .next t) : ∃ u p, Kept s u ∧ { jump u p with hold := true } = t :=
  returnFromVector_inv (outcome_eq_next.1 h)

theorem reti_inv (h : execReti s = .next t) :
    ∃ u p, Kept s u ∧ { jump u p with hold := true, nmis := false } = t := by
  simp only [execReti, outcome_eq_next, bind_eq_ok, pure_eq_ok] at h
  obtain ⟨w, hw, rfl⟩ := h
  obtain ⟨u, p, hu, rfl⟩ := returnFromVector_inv hw
  exact ⟨u, p, hu, rfl⟩

/-! All instructions. -/

/-- The instructions that change NMIS or the mode (10_state R40, R43). -/
def changesHidden : Instr → Bool
  | .reti | .halt | .stop => true
  | _ => false

theorem ne_of_not_changesHidden (h : changesHidden i = false) : i ≠ .reti ∧ i ≠ .halt ∧ i ≠ .stop := by
  refine ⟨?_, ?_, ?_⟩ <;> (rintro rfl; cases h)

/-- What the instruction `i`, run from `s`, leaves in `t`. -/
structure Ends (i : Instr) (s t : State) : Prop where
  cfg : t.cfg = s.cfg
  nmiPending : t.nmiPending = s.nmiPending
  nmis : t.nmis = if i = .reti then false else s.nmis
  mode : t.mode = if i = .halt then .halt else if i = .stop then .stop else s.mode
  /-- 10_state R28. -/
  pc : setsPc i = false → t.pc = after i s
  /-- 10_state R42; the terms that only another row may have act as their bytes do (log 34). -/
  hold : i.wf = true → t.hold = inHoldSet i
  inv : StateInv s → StateInv t

/-- An instruction that keeps NMIS and the mode, from what it does to PC, `hold` and the rest. -/
theorem Ends.of_kept (hk : Kept s u) (hi : changesHidden i = false) {p : Addr} {hold : Bool}
    (hp : setsPc i = false → p = after i s) (hh : i.wf = true → hold = inHoldSet i) :
    Ends i s { u with pc := p, hold := hold } := by
  obtain ⟨hcfg, -, hnmis, hpending, hmode, hinv⟩ := hk
  obtain ⟨hreti, hhalt, hstop⟩ := ne_of_not_changesHidden hi
  exact
    { cfg := hcfg
      nmiPending := hpending
      nmis := by rw [if_neg hreti]; exact hnmis
      mode := by rw [if_neg hhalt, if_neg hstop]; exact hmode
      pc := hp
      hold := hh
      inv := hinv }

theorem Ends.of_advanced (h : Advanced s t len hold) (hi : changesHidden i = false)
    (hlen : len = BitVec.ofNat 16 i.length) (hh : i.wf = true → hold = inHoldSet i) : Ends i s t := by
  obtain ⟨u, hk, rfl⟩ := h
  have hpc : u.pc = s.pc := hk.2.1
  exact .of_kept hk hi (fun _ => by rw [nextPc, hpc, hlen, after]) hh

theorem Ends.of_jumped (h : Jumped s t) (hi : changesHidden i = false) (hset : setsPc i = true)
    (hh : inHoldSet i = false) : Ends i s t := by
  obtain ⟨u, p, hk, rfl⟩ := h
  exact .of_kept hk hi (fun h => absurd hset (by simp [h])) (fun _ => hh.symm)

theorem ends_retb (h : exec .retb s = .next t) : Ends .retb s t := by
  obtain ⟨u, p, hk, rfl⟩ := retb_inv h
  exact .of_kept hk rfl nofun (fun _ => rfl)

theorem ends_reti (h : exec .reti s = .next t) : Ends .reti s t := by
  obtain ⟨u, p, ⟨hcfg, -, -, hpending, hmode, hinv⟩, rfl⟩ := reti_inv h
  exact ⟨hcfg, hpending, rfl, hmode, nofun, fun _ => rfl, hinv⟩

theorem ends_halt (h : exec .halt s = .next t) : Ends .halt s t := by
  cases h
  exact ⟨rfl, rfl, rfl, rfl, fun _ => rfl, fun _ => rfl, id⟩

theorem ends_stop (h : exec .stop s = .next t) : Ends .stop s t := by
  cases h
  exact ⟨rfl, rfl, rfl, rfl, fun _ => rfl, fun _ => rfl, id⟩

/-- One arm per shape of instruction: the law of the shared operation that `exec` runs for it. A general row holds
interrupts only with the operand of a named row, which well-formedness excludes. -/
theorem exec_ends (h : exec i s = .next t) : Ends i s t := by
  unfold exec at h
  cases i with
  -- 8-bit data transfer (40)
  | movRImm | movAR | movRA | movAPsw =>
    exact .of_advanced (advanced_of_next (kept_setReg ..).advanced h) rfl rfl (fun _ => rfl)
  | xchAR =>
    exact .of_advanced (advanced_of_next ((kept_setReg ..).trans (kept_setReg ..)).advanced h) rfl rfl (fun _ => rfl)
  | movPswImm | movPswA =>
    exact .of_advanced (advanced_of_next (kept_setPsw ..).advanced h) rfl rfl (fun _ => rfl)
  | movASaddr | movASfr | movAAbs | movADe | movAHl | movAHlByte | movAHlB | movAHlC =>
    exact .of_advanced (movToA_inv h) rfl rfl (fun _ => rfl)
  | movSaddrImm => exact .of_advanced (movImm_inv h) rfl rfl Bool.eq_false_of_not_eq_true'
  | movSfrImm => exact .of_advanced (movImm_inv h) rfl rfl (fun _ => rfl)
  | movSaddrA => exact .of_advanced (movFromA_inv h) rfl rfl Bool.eq_false_of_not_eq_true'
  | movSfrA | movAbsA | movDeA | movHlA | movHlByteA | movHlBA | movHlCA =>
    exact .of_advanced (movFromA_inv h) rfl rfl (fun _ => rfl)
  | xchASaddr | xchASfr | xchAAbs | xchADe | xchAHl | xchAHlByte | xchAHlB | xchAHlC =>
    exact .of_advanced (xchMem_inv h) rfl rfl (fun _ => rfl)
  -- 16-bit data transfer (41)
  | movwRpWord | movwAxRp | movwRpAx | movwAxSp | mulu | incwRp | decwRp =>
    exact .of_advanced (advanced_of_next (kept_setPair ..).advanced h) rfl rfl (fun _ => rfl)
  | xchwAxRp =>
    exact .of_advanced (advanced_of_next ((kept_setPair ..).trans (kept_setPair ..)).advanced h) rfl rfl (fun _ => rfl)
  | movwSpWord | movwSpAx =>
    exact .of_advanced (advanced_of_next (kept_withSp ..).advanced h) rfl rfl (fun _ => rfl)
  | movwAxSaddrp | movwAxSfrp | movwAxAbs => exact .of_advanced (movwToAx_inv h) rfl rfl (fun _ => rfl)
  | movwSaddrpWord | movwSfrpWord | movwSaddrpAx | movwSfrpAx | movwAbsAx =>
    exact .of_advanced (movwStore_inv h) rfl rfl (fun _ => rfl)
  -- 8-bit operations (42)
  | addAImm | addcAImm | subAImm | subcAImm | andAImm | orAImm | xorAImm | cmpAImm
  | addAR | addcAR | subAR | subcAR | andAR | orAR | xorAR | cmpAR
  | addRA | addcRA | subRA | subcRA | andRA | orRA | xorRA | cmpRA =>
    exact .of_advanced (aluOnReg_inv h) rfl rfl (fun _ => rfl)
  | addSaddrImm | addcSaddrImm | subSaddrImm | subcSaddrImm | andSaddrImm | orSaddrImm | xorSaddrImm | cmpSaddrImm =>
    exact .of_advanced (aluOnMem_inv h) rfl rfl (fun _ => rfl)
  | addASaddr | addAAbs | addAHl | addAHlByte | addAHlB | addAHlC
  | addcASaddr | addcAAbs | addcAHl | addcAHlByte | addcAHlB | addcAHlC
  | subASaddr | subAAbs | subAHl | subAHlByte | subAHlB | subAHlC
  | subcASaddr | subcAAbs | subcAHl | subcAHlByte | subcAHlB | subcAHlC
  | andASaddr | andAAbs | andAHl | andAHlByte | andAHlB | andAHlC
  | orASaddr | orAAbs | orAHl | orAHlByte | orAHlB | orAHlC
  | xorASaddr | xorAAbs | xorAHl | xorAHlByte | xorAHlB | xorAHlC
  | cmpASaddr | cmpAAbs | cmpAHl | cmpAHlByte | cmpAHlB | cmpAHlC =>
    exact .of_advanced (aluFromMem_inv h) rfl rfl (fun _ => rfl)
  -- 16-bit operations (43)
  | addwAxWord | subwAxWord | cmpwAxWord =>
    exact .of_advanced (advanced_of_next (aluW_advanced ..) h) rfl rfl (fun _ => rfl)
  -- Divide, increment, decrement (44)
  | divuw => exact .of_advanced (advanced_of_next (kept_divide ..).advanced h) rfl rfl (fun _ => rfl)
  | incR | decR => exact .of_advanced (advanced_of_next (stepReg_advanced ..) h) rfl rfl (fun _ => rfl)
  | incSaddr | decSaddr => exact .of_advanced (stepMem_inv h) rfl rfl (fun _ => rfl)
  -- Rotate and BCD adjust (45)
  | ror | rol | rorc | rolc => exact .of_advanced (advanced_of_next (rotateA_advanced ..) h) rfl rfl (fun _ => rfl)
  | ror4 | rol4 => exact .of_advanced (rotateDigits_inv h) rfl rfl (fun _ => rfl)
  | adjba | adjbs => exact .of_advanced (advanced_of_next (adjustA_advanced ..) h) rfl rfl (fun _ => rfl)
  -- Bit manipulation (46)
  | mov1CySaddrBit | mov1CySfrBit | mov1CyABit | mov1CyPswBit | mov1CyHlBit
  | and1CySaddrBit | and1CySfrBit | and1CyABit | and1CyPswBit | and1CyHlBit
  | or1CySaddrBit | or1CySfrBit | or1CyABit | or1CyPswBit | or1CyHlBit
  | xor1CySaddrBit | xor1CySfrBit | xor1CyABit | xor1CyPswBit | xor1CyHlBit =>
    exact .of_advanced (bitToCy_inv h) rfl rfl (fun _ => rfl)
  | mov1SaddrBitCy | mov1SfrBitCy | mov1ABitCy | mov1PswBitCy | mov1HlBitCy
  | set1SfrBit | set1ABit | set1HlBit | clr1SfrBit | clr1ABit | clr1HlBit =>
    exact .of_advanced (bitFromValue_inv h) rfl rfl (fun _ => rfl)
  | set1SaddrBit | clr1SaddrBit =>
    exact .of_advanced (bitFromValue_inv h) rfl rfl
      (fun hw => Bool.and_eq_false_iff.2 (.inl (Bool.eq_false_of_not_eq_true' hw)))
  | set1PswBit | clr1PswBit => exact .of_advanced (bitFromValue_inv h) rfl rfl Bool.eq_false_of_not_eq_true'
  | set1Cy | clr1Cy | not1Cy =>
    exact .of_advanced (advanced_of_next (kept_setFlags ..).advanced h) rfl rfl (fun _ => rfl)
  -- Call, return and stack manipulation (47)
  | call => exact .of_jumped (call_inv h) rfl rfl rfl
  | callf => exact .of_jumped (callf_inv h) rfl rfl rfl
  | callt => exact .of_jumped (callt_inv h) rfl rfl rfl
  | brk => exact .of_jumped (brk_inv h) rfl rfl rfl
  | ret => exact .of_jumped (ret_inv h) rfl rfl rfl
  | retb => exact ends_retb h
  | reti => exact ends_reti h
  | pushPsw => exact .of_advanced (pushPsw_inv h) rfl rfl (fun _ => rfl)
  | pushRp => exact .of_advanced (pushRp_inv h) rfl rfl (fun _ => rfl)
  | popPsw => exact .of_advanced (popPsw_inv h) rfl rfl (fun _ => rfl)
  | popRp => exact .of_advanced (popRp_inv h) rfl rfl (fun _ => rfl)
  -- Branches (48)
  | brAbs | brAx => exact .of_jumped (jumped_of_next (Kept.refl s).jumped h) rfl rfl rfl
  | brRel | bc | bnc | bz | bnz =>
    exact .of_jumped (jumped_of_next (branchIf_jumped _ _ _ _ (Kept.refl s)) h) rfl rfl rfl
  | btSaddrBit | btSfrBit | btABit | btPswBit | btHlBit | bfSaddrBit | bfSfrBit | bfABit | bfPswBit | bfHlBit =>
    exact .of_jumped (branchOnBit_inv h) rfl rfl rfl
  | btclrSaddrBit | btclrSfrBit | btclrABit | btclrPswBit | btclrHlBit =>
    exact .of_jumped (branchAndClear_inv h) rfl rfl rfl
  | dbnzB | dbnzC => exact .of_jumped (jumped_of_next (countReg_jumped ..) h) rfl rfl rfl
  | dbnzSaddr => exact .of_jumped (countMem_inv h) rfl rfl rfl
  -- CPU control (49)
  | sel => exact .of_advanced (advanced_of_next (kept_selectBank ..).advanced h) rfl rfl (fun _ => rfl)
  | nop => exact .of_advanced (advanced_of_next (Kept.refl s).advanced h) rfl rfl (fun _ => rfl)
  | ei | di => exact .of_advanced (advanced_of_next (kept_setIe ..).advanced h) rfl rfl (fun _ => rfl)
  | halt => exact ends_halt h
  | stop => exact ends_stop h

/-! The instruction that a step runs. -/

theorem applyHoldSet_eq_next {c : Config} {r : Result} :
    applyHoldSet c i r = .next t ↔
      ∃ u, r = .next u ∧ { u with hold := u.hold || c.moreHold.any (fun p => p.matches (encode i)) } = t := by
  cases r <;> simp [applyHoldSet]

/-- Without an acknowledgement, a step in Run mode runs the instruction at PC. -/
theorem step_of_fetch (hsel : selected s = none) (hmode : s.mode = .run) (hf : fetch s = .ok i) :
    step s = applyHoldSet s.cfg i (exec i s) := by
  simp only [step, hsel, hmode, hf]

/-- The encoder writes the bytes that the code list counts (30_encoding R103, R110). -/
theorem encode_length (i : Instr) : (encode i).length = i.length := by cases i <;> rfl

/-! Registers. -/

theorem regAddr_toNat (b : BitVec 2) (r : Reg8) : (regAddr b r).toNat = 0xFEF8 - 8 * b.toNat + r.code.toNat := by
  revert b; cases r <;> decide

theorem lowReg_code (p : RegPair) : p.lowReg.code = 2 * p.code.setWidth 3 := by cases p <;> rfl

theorem highReg_code (p : RegPair) : p.highReg.code = 2 * p.code.setWidth 3 + 1 := by cases p <;> rfl

/-- Writing a register changes its byte and nothing else (10_state R21). -/
theorem setReg_effect (s : State) (b : BitVec 2) (r : Reg8) (v : Byte) :
    Effect s (setReg s b r v) s.pc s.hold [(regAddr b r, v)] :=
  ⟨setReg_pc .., setReg_hold .., ⟨setReg_cfg .., setReg_nmis .., setReg_nmiPending .., setReg_mode .., setReg_sfrLog ..,
    setReg_freeCount ..⟩, byteAt_setReg s b r v⟩

/-- Writing a pair changes the bytes of its two registers and nothing else (10_state R23). -/
theorem setPair_effect (s : State) (b : BitVec 2) (p : RegPair) (v : Word) :
    Effect s (setPair s b p v) s.pc s.hold (pairBytes b p v) :=
  ⟨setPair_pc .., setPair_hold .., ⟨setPair_cfg .., setPair_nmis .., setPair_nmiPending .., setPair_mode ..,
    setPair_sfrLog .., setPair_freeCount ..⟩, byteAt_setPair s b p v⟩

end Sys2Proof.Machine
end

section
/-! The obligations about the state (10_state). -/

namespace Sys2Proof.Machine

/-- Settles O55: `exec` sets `hold` as `Ends` says of every instruction, and a step adds what the product's `HoldSet`
names. -/
theorem holdAfterHoldSetOnly : Obligations.HoldAfterHoldSetOnly := by
  intro i s t hwf
  refine ⟨fun h => (exec_ends h).hold hwf, fun hsel hmode hf h => ?_⟩
  rw [step_of_fetch hsel hmode hf] at h
  obtain ⟨u, hu, rfl⟩ := applyHoldSet_eq_next.1 h
  rw [← (exec_ends hu).hold hwf]

/-- Settles O56, from what every instruction leaves. -/
theorem hiddenStateChangesOnlyAsNamed : Obligations.HiddenStateChangesOnlyAsNamed := by
  intro i s t h
  have hends := exec_ends h
  exact ⟨hends.nmis, hends.mode, hends.cfg, hends.nmiPending⟩

/-- Settles O8, from the addresses of the registers and the effect of a store. -/
theorem registersAreMemory : Obligations.RegistersAreMemory := by
  intro s b r p v w
  exact ⟨regAddr_toNat b r, rfl, fun b' r' => regAddr_inj b b' r r',
    fun u => accessible_of_ihram u (inIhram_regAddr s.cfg b r), lowReg_code p, highReg_code p, rfl,
    setReg_effect s b r v, setPair_effect s b p w⟩

/-- Settles O57: `Ends` gives PC by the length in the code list, which is that of the encoding. -/
theorem pcMovesPastInstruction : Obligations.PcMovesPastInstruction := by
  intro i s t hset h
  rw [encode_length]
  exact (exec_ends h).pc hset

/-- Settles O48 by evaluating the reset state. -/
theorem resetValuesHold : Obligations.ResetValuesHold := ⟨rfl, rfl, rfl, rfl, rfl, rfl⟩

/-- Settles O53: an empty memory is in canonical form, and bit 2 of 02H is 0. -/
theorem invariantAtReset : Obligations.InvariantAtReset := ⟨rfl, rfl, rfl⟩

end Sys2Proof.Machine
end

section
/-! SUPPORT. When an access, a stack operation or an instruction of each family stops, and with which fault, said once:
the other half of the inversion laws. -/

namespace Sys2Proof.Machine

variable {s : State} {m : MemOperand} {u : AccessUnit} {a len : Addr} {f : Fault}

theorem outcome_eq_fault {e : Except Fault State} : outcome e = .fault f ↔ e = .error f := by
  cases e <;> simp [outcome]

/-- A sequence stops exactly if its first part does, or completes and the rest stops. -/
theorem bind_eq_error {ε α β : Type} {e : Except ε α} {g : α → Except ε β} {r : ε} :
    (e >>= g) = .error r ↔ e = .error r ∨ ∃ x, e = .ok x ∧ g x = .error r := by
  cases e <;> simp [bind, Except.bind]

theorem pure_ne_error {ε α : Type} {x : α} {r : ε} : ((pure x : Except ε α) = .error r) = False := by
  simp [pure, Except.pure]

/-! Accesses. -/

theorem load8_eq_error : load8 s u a = .error f ↔ checkRead s u a = .error f := by
  simp only [load8, bind_eq_error, pure_ne_error, and_false, exists_false, or_false]

theorem store8_eq_error {v : Byte} : store8 s u a v = .error f ↔ checkWrite s u a = .error f := by
  simp only [store8, bind_eq_error, pure_ne_error, and_false, exists_false, or_false]

theorem load16_eq_error :
    load16 s a = .error f ↔
      checkRead s .word a = .error f ∨ Readable s .word a ∧ checkRead s .word (a + 1) = .error f := by
  simp only [load16, bind_eq_error, pure_ne_error, and_false, exists_false, or_false, Prod.exists, load8_eq_ok,
    load8_eq_error]
  refine or_congr_right ⟨?_, fun ⟨h, h'⟩ => ⟨_, _, ⟨h, rfl, rfl⟩, h'⟩⟩
  rintro ⟨v, t, ⟨h, -, rfl⟩, h'⟩
  exact ⟨h, h'⟩

theorem store16_eq_error {v : Word} :
    store16 s a v = .error f ↔
      checkWrite s .word a = .error f ∨ Writable s .word a ∧ checkWrite s .word (a + 1) = .error f := by
  have second : ∀ b w, checkWrite (putByte (noteWrite s a b) a b) .word w = checkWrite s .word w := fun b w =>
    checkWrite_putByte ..
  simp only [store16, bind_eq_error, store8_eq_ok, store8_eq_error]
  refine or_congr_right ⟨?_, fun ⟨h, h'⟩ => ⟨_, ⟨h, rfl⟩, (second ..).trans h'⟩⟩
  rintro ⟨t, ⟨h, rfl⟩, h'⟩
  exact ⟨h, (second ..).symm.trans h'⟩

/-! Operands. -/

theorem byteOperand_of_invalid {o : Byte} (h : 0xD0 ≤ o.toNat ∧ o.toNat ≤ 0xDF) :
    byteOperand s (.sfr o) = .error (.sfrOffset s.pc (sfrAddr o)) := by
  have hinv : sfrOffsetInvalid o = true := by simp [sfrOffsetInvalid, h]
  simp only [byteOperand, hinv, if_true]

theorem wordOperand_of_byteOperand_error (h : byteOperand s m = .error f) : wordOperand s m = .error f :=
  bind_eq_error.2 (.inl h)

theorem loadOperand_of_byteOperand_error (h : byteOperand s m = .error f) : loadOperand s u m = .error f :=
  bind_eq_error.2 (.inl h)

theorem loadOperand_of_unreadable (hm : Named m) (h : checkRead s u (effAddr s m) = .error f) :
    loadOperand s u m = .error f :=
  bind_eq_error.2 (.inr ⟨_, byteOperand_of_named hm, load8_eq_error.2 h⟩)

/-- A 16-bit operand at an odd address stops the instruction (20_memory R77). -/
theorem wordOperand_of_odd (hm : Named m) (h : (effAddr s m).getLsbD 0 = true) :
    wordOperand s m = .error (.oddWord s.pc (effAddr s m)) :=
  bind_eq_error.2 (.inr ⟨_, byteOperand_of_named hm, if_pos h⟩)

/-- An instruction that stores to `m` in the unit `u` stops with `f`. -/
def StoreStops (s : State) (u : AccessUnit) (m : MemOperand) (f : Fault) : Prop :=
  byteOperand s m = .error f ∨ Named m ∧ checkWrite s u (effAddr s m) = .error f

/-- An instruction that reads `m` in the unit `u`, and then stores to it if `writes` holds, stops with `f`. -/
def UpdateStops (s : State) (u : AccessUnit) (m : MemOperand) (writes : Prop) (f : Fault) : Prop :=
  byteOperand s m = .error f ∨ Named m ∧ (checkRead s u (effAddr s m) = .error f ∨
    writes ∧ Readable s u (effAddr s m) ∧ checkWrite s u (effAddr s m) = .error f)

/-- What `StoreStops` says of the operations. -/
theorem store_of_storeStops {α : Type} {v : Byte} {k : State → Except Fault α} (h : StoreStops s u m f) :
    (byteOperand s m >>= fun a => store8 s u a v >>= k) = .error f := by
  obtain h | ⟨hm, hw⟩ := h
  · exact bind_eq_error.2 (.inl h)
  · exact bind_eq_error.2 (.inr ⟨_, byteOperand_of_named hm, bind_eq_error.2 (.inl (store8_eq_error.2 hw))⟩)

theorem loadThenStore_error {α : Type} {writes : Prop} {k : Byte × State → Except Fault α}
    (hk : ∀ v t, writes → checkWrite t u a = .error f → k (v, t) = .error f)
    (h : checkRead s u a = .error f ∨ writes ∧ Readable s u a ∧ checkWrite s u a = .error f) :
    (load8 s u a >>= k) = .error f := by
  obtain hr | ⟨hwrites, hr, hw⟩ := h
  · exact bind_eq_error.2 (.inl (load8_eq_error.2 hr))
  · exact bind_eq_error.2 (.inr ⟨_, load8_of_readable hr, hk _ _ hwrites hw⟩)

/-- What `UpdateStops` says of the operations. -/
theorem update_of_updateStops {α : Type} {writes : Prop} {k : Addr → Byte × State → Except Fault α}
    (hk : ∀ a v t, writes → checkWrite t u a = .error f → k a (v, t) = .error f)
    (h : UpdateStops s u m writes f) :
    (byteOperand s m >>= fun a => load8 s u a >>= k a) = .error f := by
  obtain h | ⟨hm, h⟩ := h
  · exact bind_eq_error.2 (.inl h)
  · exact bind_eq_error.2 (.inr ⟨_, byteOperand_of_named hm, loadThenStore_error (hk _) h⟩)

/-! The families with a memory operand. -/

theorem movToA_fault (h : loadOperand s .byte m = .error f) : movToA m len s = .fault f :=
  outcome_eq_fault.2 (bind_eq_error.2 (.inl h))

theorem aluFromMem_fault {op : AluOp} (h : loadOperand s .byte m = .error f) : aluFromMem op m len s = .fault f :=
  outcome_eq_fault.2 (bind_eq_error.2 (.inl h))

theorem movImm_fault {v : Byte} {hold : Bool} (h : StoreStops s .byte m f) : movImm m v len hold s = .fault f :=
  outcome_eq_fault.2 (store_of_storeStops h)

theorem movFromA_fault {hold : Bool} (h : StoreStops s .byte m f) : movFromA m len hold s = .fault f :=
  outcome_eq_fault.2 (store_of_storeStops h)

theorem xchMem_fault (h : UpdateStops s .byte m True f) : xchMem m len s = .fault f :=
  outcome_eq_fault.2 (update_of_updateStops
    (fun _ _ _ _ hw => bind_eq_error.2 (.inl (store8_eq_error.2 hw))) h)

theorem aluOnMem_fault {op : AluOp} {src : Byte} (h : UpdateStops s .byte m (op ≠ .cmp) f) :
    aluOnMem op m src len s = .fault f := by
  refine outcome_eq_fault.2 (update_of_updateStops (fun a v t hop hw => ?_) h)
  have hs : aluStores op = true := by cases op <;> first | rfl | exact absurd rfl hop
  simp only [hs, if_true]
  exact bind_eq_error.2 (.inl (store8_eq_error.2 hw))

theorem stepMem_fault {g : Byte → Byte × FlagUpdate} (h : UpdateStops s .byte m True f) :
    stepMem g m len s = .fault f :=
  outcome_eq_fault.2 (update_of_updateStops
    (fun _ _ _ _ hw => bind_eq_error.2 (.inl (store8_eq_error.2 hw))) h)

theorem countMem_fault {j : Byte} (h : UpdateStops s .byte m True f) : countMem m len j s = .fault f :=
  outcome_eq_fault.2 (update_of_updateStops
    (fun _ _ _ _ hw => bind_eq_error.2 (.inl (store8_eq_error.2 hw))) h)

theorem rotateDigits_fault {g : Byte → Byte → Byte × Byte} (ha : inSfrArea (effAddr s .hl) = false)
    (h : checkRead s .byte (effAddr s .hl) = .error f ∨
      Readable s .byte (effAddr s .hl) ∧ checkWrite s .byte (effAddr s .hl) = .error f) :
    rotateDigits g len s = .fault f := by
  simp only [rotateDigits, ha, Bool.false_eq_true, if_false]
  exact outcome_eq_fault.2 (loadThenStore_error (writes := True)
    (fun _ _ _ hw => bind_eq_error.2 (.inl (store8_eq_error.2 hw))) (h.imp_right fun h => ⟨trivial, h⟩))

theorem movwToAx_fault_of_operand (h : wordOperand s m = .error f) : movwToAx m len s = .fault f :=
  outcome_eq_fault.2 (bind_eq_error.2 (.inl h))

theorem movwStore_fault_of_operand {v : Word} (h : wordOperand s m = .error f) : movwStore m v len s = .fault f :=
  outcome_eq_fault.2 (bind_eq_error.2 (.inl h))

theorem movwToAx_fault_of_load (hm : Named m) (he : (effAddr s m).getLsbD 0 = false)
    (h : load16 s (effAddr s m) = .error f) : movwToAx m len s = .fault f :=
  outcome_eq_fault.2 (bind_eq_error.2 (.inr ⟨_, wordOperand_of_named hm he, bind_eq_error.2 (.inl h)⟩))

theorem movwStore_fault_of_store {v : Word} (hm : Named m) (he : (effAddr s m).getLsbD 0 = false)
    (h : store16 s (effAddr s m) v = .error f) : movwStore m v len s = .fault f :=
  outcome_eq_fault.2 (bind_eq_error.2 (.inr ⟨_, wordOperand_of_named hm he, bind_eq_error.2 (.inl h)⟩))

/-! Bits. -/

section
variable {x : BitPlace} {n : BitVec 3}

theorem bitByte_of_invalid {o : Byte} (h : 0xD0 ≤ o.toNat ∧ o.toNat ≤ 0xDF) :
    bitByte s (.mem (.sfr o)) = .error (.sfrOffset s.pc (sfrAddr o)) :=
  loadOperand_of_byteOperand_error (byteOperand_of_invalid h)

/-- A and PSW can always be read. -/
theorem bitByte_of_unreadable (hx : x.Named) (h : checkRead s .bit (x.addr s) = .error f) :
    bitByte s x.operand = .error f := by
  cases x with
  | saddr o => exact loadOperand_of_unreadable (m := .saddr o) trivial h
  | sfr o => exact loadOperand_of_unreadable (m := .sfr o) hx h
  | hl => exact loadOperand_of_unreadable (m := .hl) trivial h
  | a => cases h.symm.trans (accessible_of_ihram .bit (inIhram_regAddr s.cfg (bank s) .a)).1
  | psw => cases h.symm.trans (readable_psw s .bit)

theorem putBitByte_mem_of_unwritable {v : Byte} (hm : Named m) (h : checkWrite s .bit (effAddr s m) = .error f) :
    putBitByte s (.mem m) v = .error f :=
  bind_eq_error.2 (.inr ⟨_, byteOperand_of_named hm, store8_eq_error.2 h⟩)

/-- A and PSW can always be written. -/
theorem putBitByte_of_unwritable {v : Byte} (hx : x.Named) (h : checkWrite s .bit (x.addr s) = .error f) :
    putBitByte s x.operand v = .error f := by
  cases x with
  | saddr o => exact putBitByte_mem_of_unwritable (m := .saddr o) trivial h
  | sfr o => exact putBitByte_mem_of_unwritable (m := .sfr o) hx h
  | hl => exact putBitByte_mem_of_unwritable (m := .hl) trivial h
  | a => cases h.symm.trans (accessible_of_ihram .bit (inIhram_regAddr s.cfg (bank s) .a)).2
  | psw => cases h.symm.trans (writable_psw s .bit)

/-- The byte of a bit operand cannot be written once it has been read. -/
theorem putBitByte_of_unwritable_after_read {v : Byte} {b : Addr} (hx : x.Named)
    (h : checkWrite s .bit (x.addr s) = .error f) : putBitByte (noteRead s b) x.operand v = .error f :=
  putBitByte_of_unwritable hx (by rw [addr_noteRead]; exact h)

theorem writeBit_of_bitByte_error {v : Bool} {x : BitOperand} (h : bitByte s x = .error f) :
    writeBit s x n v = .error f := bind_eq_error.2 (.inl h)

theorem writeBit_of_unwritable {v : Bool} (hx : x.Named) (hr : Readable s .bit (x.addr s))
    (hw : checkWrite s .bit (x.addr s) = .error f) : writeBit s x.operand n v = .error f :=
  bind_eq_error.2 (.inr ⟨_, bitByte_of_readable hx hr, putBitByte_of_unwritable_after_read hx hw⟩)

theorem bitToCy_fault {g : Bool → Bool → Bool} {x : BitOperand} (h : bitByte s x = .error f) :
    bitToCy g x n len s = .fault f := outcome_eq_fault.2 (bind_eq_error.2 (.inl (bind_eq_error.2 (.inl h))))

theorem bitFromValue_fault {v hold : Bool} {x : BitOperand} (h : writeBit s x n v = .error f) :
    bitFromValue x n v len hold s = .fault f := outcome_eq_fault.2 (bind_eq_error.2 (.inl h))

theorem branchOnBit_fault {v : Bool} {j : Byte} {x : BitOperand} (h : bitByte s x = .error f) :
    branchOnBit v x n len j s = .fault f := outcome_eq_fault.2 (bind_eq_error.2 (.inl (bind_eq_error.2 (.inl h))))

theorem branchAndClear_fault {j : Byte} {x : BitOperand} (h : bitByte s x = .error f) :
    branchAndClear x n len j s = .fault f := outcome_eq_fault.2 (bind_eq_error.2 (.inl h))

/-- BTCLR writes only where the bit is 1. -/
theorem branchAndClear_fault_of_one {j : Byte} (hx : x.Named) (hr : Readable s .bit (x.addr s))
    (hw : checkWrite s .bit (x.addr s) = .error f) (hb : bitOf (valueAt s (x.addr s)) n = true) :
    branchAndClear x.operand n len j s = .fault f := by
  refine outcome_eq_fault.2 (bind_eq_error.2 (.inr ⟨_, bitByte_of_readable hx hr, ?_⟩))
  simp only [hb, if_true]
  exact bind_eq_error.2 (.inl (putBitByte_of_unwritable_after_read hx hw))

end

/-! The stack. -/

theorem push8_eq_error {v : Byte} :
    push8 s v = .error f ↔ inIhram s.cfg (s.sp - 1) = false ∧ .stackOutside s.pc (s.sp - 1) = f := by
  simp only [push8]
  split_ifs with h
  · simp only [h, Bool.true_eq_false, false_and]
  · simp only [Except.error.injEq, Bool.eq_false_of_not_eq_true h, true_and]

theorem pop8_eq_error : pop8 s = .error f ↔ inIhram s.cfg s.sp = false ∧ .stackOutside s.pc s.sp = f := by
  simp only [pop8]
  split_ifs with h
  · simp only [h, Bool.true_eq_false, false_and]
  · simp only [Except.error.injEq, Bool.eq_false_of_not_eq_true h, true_and]

/-- Pushing a word stops at the first byte whose address lies outside the internal high-speed RAM. -/
theorem push16_eq_error {w : Word} :
    push16 s w = .error f ↔
      inIhram s.cfg (s.sp - 1) = false ∧ .stackOutside s.pc (s.sp - 1) = f ∨
        inIhram s.cfg (s.sp - 1) = true ∧ inIhram s.cfg (s.sp - 1 - 1) = false ∧
          .stackOutside s.pc (s.sp - 1 - 1) = f := by
  simp only [push16, bind_eq_error, push8_eq_ok, push8_eq_error]
  refine or_congr_right ⟨?_, fun ⟨h, h'⟩ => ⟨_, ⟨h, rfl⟩, ?_⟩⟩
  · rintro ⟨t, ⟨h, rfl⟩, h'⟩
    rw [pushed_sp h, putByte_cfg, putByte_pc] at h'
    exact ⟨h, h'⟩
  · rw [pushed_sp h, putByte_cfg, putByte_pc]
    exact h'

theorem pop16_eq_error :
    pop16 s = .error f ↔
      inIhram s.cfg s.sp = false ∧ .stackOutside s.pc s.sp = f ∨
        inIhram s.cfg s.sp = true ∧ inIhram s.cfg (s.sp + 1) = false ∧ .stackOutside s.pc (s.sp + 1) = f := by
  simp only [pop16, bind_eq_error, pure_ne_error, and_false, exists_false, or_false, Prod.exists, pop8_eq_ok,
    pop8_eq_error]
  refine or_congr_right ⟨?_, fun ⟨h, h'⟩ => ⟨_, _, ⟨h, rfl, rfl⟩, h'⟩⟩
  rintro ⟨v, t, ⟨h, -, rfl⟩, h'⟩
  exact ⟨h, h'⟩

theorem callTo_fault {target : State → Except Fault (Addr × State)}
    (h : push16 s (nextPc s len) = .error f) : callTo target len s = .fault f :=
  outcome_eq_fault.2 (bind_eq_error.2 (.inl h))

/-- Entering a handler pushes PSW, then the return address. -/
theorem enterVector_error {ret vector : Addr} {mark : State → State}
    (h : push8 s s.psw = .error f ∨ ∃ t, push8 s s.psw = .ok t ∧ push16 t ret = .error f) :
    enterVector s ret vector mark = .error f := by
  obtain h | ⟨t, ht, h⟩ := h
  · exact bind_eq_error.2 (.inl h)
  · exact bind_eq_error.2 (.inr ⟨t, ht, bind_eq_error.2 (.inl h)⟩)

/-- Returning from a handler pops PC, then PSW. -/
theorem returnFromVector_error
    (h : pop16 s = .error f ∨ ∃ ret t, pop16 s = .ok (ret, t) ∧ pop8 t = .error f) :
    returnFromVector s = .error f := by
  obtain h | ⟨ret, t, ht, h⟩ := h
  · exact bind_eq_error.2 (.inl h)
  · exact bind_eq_error.2 (.inr ⟨(ret, t), ht, bind_eq_error.2 (.inl h)⟩)

/-! The instructions of one shape run their family's operation. -/

theorem exec_movLoad (m : MemOperand) (s : State) :
    exec (movLoad m) s = movToA m (BitVec.ofNat 16 (movLoad m).length) s := by cases m <;> rfl

theorem exec_movStore (m : MemOperand) (s : State) :
    ∃ hold, exec (movStore m) s = movFromA m (BitVec.ofNat 16 (movStore m).length) hold s := by
  cases m with
  | saddr o => exact ⟨o == pswOffset, rfl⟩
  | _ => exact ⟨false, rfl⟩

theorem exec_movStoreImm {i : Instr} {d : Byte} (h : movStoreImm d m = some i) (s : State) :
    ∃ hold, exec i s = movImm m d (BitVec.ofNat 16 i.length) hold s := by
  cases m with
  | saddr o => cases h; exact ⟨o == pswOffset, rfl⟩
  | sfr o => cases h; exact ⟨false, rfl⟩
  | _ => cases h

theorem exec_xchMemory (m : MemOperand) (s : State) :
    exec (xchMemory m) s = xchMem m (BitVec.ofNat 16 (xchMemory m).length) s := by cases m <;> rfl

theorem exec_movwLoad {i : Instr} (h : movwLoad m = some i) (s : State) :
    exec i s = movwToAx m (BitVec.ofNat 16 i.length) s := by cases m <;> cases h <;> rfl

theorem exec_movwStoreAx {i : Instr} (h : movwStoreAx m = some i) (s : State) :
    exec i s = movwStore m (pair s (bank s) .ax) (BitVec.ofNat 16 i.length) s := by cases m <;> cases h <;> rfl

theorem exec_movwStoreWord {i : Instr} {w : Word} (h : movwStoreWord w m = some i) (s : State) :
    exec i s = movwStore m w (BitVec.ofNat 16 i.length) s := by cases m <;> cases h <;> rfl

theorem exec_aluSaddr (op : AluOp) (o d : Byte) (s : State) :
    exec (aluSaddr op o d) s = aluOnMem op (.saddr o) d 3 s := by cases op <;> rfl

theorem exec_aluMemory {i : Instr} {op : AluOp} (h : aluMemory op m = some i) (s : State) :
    exec i s = aluFromMem op m (BitVec.ofNat 16 i.length) s := by cases op <;> cases m <;> cases h <;> rfl

theorem exec_bitIntoCy (bit : BitOp) (n : BitVec 3) (x : BitPlace) (s : State) :
    exec (bitIntoCy bit n x) s =
      bitToCy (fun c v => bit.value c v) x.operand n (BitVec.ofNat 16 (bitIntoCy bit n x).length) s := by
  cases bit <;> cases x <;> rfl

theorem exec_cyIntoBit (n : BitVec 3) (x : BitPlace) (s : State) :
    exec (cyIntoBit n x) s = bitFromValue x.operand n (cy s) (BitVec.ofNat 16 (cyIntoBit n x).length) false s := by
  cases x <;> rfl

/-- SET1 and CLR1 of the bit IE hold interrupts: their bytes are those of EI and DI. -/
theorem exec_constantIntoBit (v : Bool) (n : BitVec 3) (x : BitPlace) (s : State) :
    ∃ hold, exec (constantIntoBit v n x) s =
      bitFromValue x.operand n v (BitVec.ofNat 16 (constantIntoBit v n x).length) hold s := by
  cases v <;> cases x with
  | saddr o => exact ⟨o == pswOffset && n == 7, rfl⟩
  | psw => exact ⟨n == 7, rfl⟩
  | _ => exact ⟨false, rfl⟩

theorem exec_branchIfBit (v : Bool) (j : Byte) (n : BitVec 3) (x : BitPlace) (s : State) :
    exec (branchIfBit v j n x) s =
      branchOnBit v x.operand n (BitVec.ofNat 16 (branchIfBit v j n x).length) j s := by
  cases v <;> cases x <;> rfl

theorem exec_branchAndClearBit (j : Byte) (n : BitVec 3) (x : BitPlace) (s : State) :
    exec (branchAndClearBit j n x) s =
      branchAndClear x.operand n (BitVec.ofNat 16 (branchAndClearBit j n x).length) j s := by cases x <;> rfl

/-- Every instruction with a bit operand reads its byte first. -/
theorem bitForms_fault {bit : BitOp} {n : BitVec 3} {v : Bool} {j : Byte} {x : BitPlace}
    (h : bitByte s x.operand = .error f) :
    ∀ k ∈ [bitIntoCy bit n x, cyIntoBit n x, constantIntoBit v n x, branchIfBit v j n x, branchAndClearBit j n x],
      exec k s = .fault f := by
  obtain ⟨hold, hconstant⟩ := exec_constantIntoBit v n x s
  simp only [List.forall_mem_cons, List.not_mem_nil, false_implies, implies_true, and_true, exec_bitIntoCy,
    exec_cyIntoBit, hconstant, exec_branchIfBit, exec_branchAndClearBit]
  exact ⟨bitToCy_fault h, bitFromValue_fault (writeBit_of_bitByte_error h),
    bitFromValue_fault (writeBit_of_bitByte_error h), branchOnBit_fault h, branchAndClear_fault h⟩

end Sys2Proof.Machine
end

section
/-! The obligations about memory, operands and accesses (20_memory). -/

namespace Sys2Proof.Machine

/-! The invariant (20_memory R60). -/

theorem inv_of_acknowledge {s t : State} {src : IntSource} (h : StateInv s) (ha : acknowledge s src = .ok t) :
    StateInv t := by
  obtain ⟨u, w, p, ⟨-, -, -, -, -, hu⟩, ⟨-, -, -, -, -, hw⟩, rfl⟩ := enterVector_inv ha
  exact inv_jump (hw (inv_recordAcknowledge src (hu h)))

theorem inv_of_applyHoldSet {s t : State} {i : Instr} (h : StateInv s)
    (ht : applyHoldSet s.cfg i (exec i s) = .next t) : StateInv t := by
  obtain ⟨u, hu, rfl⟩ := applyHoldSet_eq_next.1 ht
  exact (exec_ends hu).inv h

/-- A step of a standby mode changes the mode at most (60_exceptions R432). -/
theorem inv_of_standby {s t : State} (h : StateInv s)
    (ht : (Host.Outcome.next (if released s then { s with mode := .run } else s) : Result) = .next t) :
    StateInv t := by
  injection ht with ht
  subst ht
  cases released s with
  | true => exact h
  | false => exact h

/-- Settles O52, by the three kinds of step: an acknowledgement, an instruction, and a step in standby. -/
theorem stepKeepsInvariant : Obligations.StepKeepsInvariant := by
  intro s t h hstep
  cases hsel : selected s with
  | some src =>
    simp only [step, hsel] at hstep
    exact inv_of_acknowledge h (outcome_eq_next.1 hstep)
  | none =>
    cases hmode : s.mode with
    | run =>
      cases hfetch : fetch s with
      | ok i => exact inv_of_applyHoldSet h ((step_of_fetch hsel hmode hfetch).symm.trans hstep)
      | error f => simp only [step, hsel, hmode, hfetch, reduceCtorEq] at hstep
    | halt =>
      simp only [step, hsel, hmode] at hstep
      exact inv_of_standby h hstep
    | stop =>
      simp only [step, hsel, hmode] at hstep
      exact inv_of_standby h hstep

/-! Reading and storing (20_memory R72, R73, R75, R79). -/

/-- Settles O59: each check answers by the first of its conditions that fails. -/
theorem faultsNameTheirReason : Obligations.FaultsNameTheirReason := by
  intro s u a hc
  refine ⟨fun ha hs => ?_, fun f ha hs => ⟨fun h => ?_, fun h => ?_, fun h h' => ?_, fun h h' => ?_⟩,
    fun ha hi hr => ?_, fun r ha hi hr => ⟨fun h => ?_, fun h => ?_⟩⟩
  · simp [checkRead, checkWrite, hc, ha, hs]
  · simp [checkRead, hc, ha, hs, h]
  · simp [checkWrite, hc, ha, hs, h]
  · simp [checkRead, hc, ha, hs, h, h']
  · simp [checkWrite, hc, ha, hs, h, h']
  · simp [checkRead, checkWrite, hc, ha, hi, hr]
  · simp [checkRead, hc, ha, hi, hr, h]
  · simp [checkWrite, hc, ha, hi, hr, h]

theorem isControl_iff {a : Addr} : isControl a = true ↔ a = 0xFF1C ∨ a = 0xFF1D ∨ a = 0xFF1E := by
  simp only [isControl, pswAddr, spLowAddr, spHighAddr, Bool.or_eq_true, beq_iff_eq]
  tauto

theorem inSfrArea_iff {a : Addr} : inSfrArea a = true ↔ 0xFF00 ≤ a.toNat := by
  simp only [inSfrArea, decide_eq_true_eq]

theorem inSfrArea_eq_false_iff {a : Addr} : inSfrArea a = false ↔ a.toNat < 0xFF00 := by
  simp only [inSfrArea, decide_eq_false_iff_not, Nat.not_le]

/-- PSW and SP are always readable; of the SFR area else what `SfrMap` says, and elsewhere what `MemMap` says. -/
theorem readable_iff {s : State} {u : AccessUnit} {a : Addr} :
    Readable s u a ↔ isControl a = true ∨
      (inSfrArea a = true ∧ ∃ f, sfrAt s.cfg a = some f ∧ f.readable = true ∧ sfrAllows f u = true) ∨
      (inSfrArea a = false ∧ (inIhram s.cfg a = true ∨ ∃ r, regionAt s.cfg a = some r ∧ r.readable = true)) := by
  unfold Readable checkRead
  cases isControl a with
  | true => simp
  | false =>
    cases inSfrArea a with
    | true =>
      cases sfrAt s.cfg a with
      | none => simp
      | some f => cases hr : f.readable <;> cases hu : sfrAllows f u <;> simp [hr, hu]
    | false =>
      cases inIhram s.cfg a with
      | true => simp
      | false =>
        cases regionAt s.cfg a with
        | none => simp
        | some r => cases hr : r.readable <;> simp [hr]

/-- PSW and SP are always writable; of the SFR area else what `SfrMap` says, and elsewhere what `MemMap` says. -/
theorem writable_iff {s : State} {u : AccessUnit} {a : Addr} :
    Writable s u a ↔ isControl a = true ∨
      (inSfrArea a = true ∧ ∃ f, sfrAt s.cfg a = some f ∧ f.writable = true ∧ sfrAllows f u = true) ∨
      (inSfrArea a = false ∧ (inIhram s.cfg a = true ∨ ∃ r, regionAt s.cfg a = some r ∧ r.writable = true)) := by
  unfold Writable checkWrite
  cases isControl a with
  | true => simp
  | false =>
    cases inSfrArea a with
    | true =>
      cases sfrAt s.cfg a with
      | none => simp
      | some f => cases hw : f.writable <;> cases hu : sfrAllows f u <;> simp [hw, hu]
    | false =>
      cases inIhram s.cfg a with
      | true => simp
      | false =>
        cases regionAt s.cfg a with
        | none => simp
        | some r => cases hw : r.writable <;> simp [hw]

/-- Nothing of the SFR area can be fetched; elsewhere what `MemMap` makes executable (20_memory R74). -/
theorem fetchFault_eq_none_iff {s : State} {a : Addr} :
    fetchFault s a = none ↔ inSfrArea a = false ∧
      (if inIhram s.cfg a = true then ∃ r ∈ s.cfg.ihramExecutable, r.lo ≤ a.toNat ∧ a.toNat ≤ r.hi
        else ∃ r, regionAt s.cfg a = some r ∧ r.executable = true) := by
  unfold fetchFault
  cases inSfrArea a with
  | true => cases isControl a || (sfrAt s.cfg a).isSome <;> simp
  | false =>
    cases inIhram s.cfg a with
    | true => simp [-not_exists, -not_and]
    | false =>
      cases regionAt s.cfg a with
      | none => simp
      | some r => cases hx : r.executable <;> simp [hx]

/-- Settles O10, from the three characterisations. -/
theorem accessibleExactly : Obligations.AccessibleExactly := by
  intro s u a
  rw [readable_iff, writable_iff, fetchFault_eq_none_iff, isControl_iff, inSfrArea_iff, inSfrArea_eq_false_iff]
  simp only [or_assoc, and_self]

theorem isDevice_iff {c : Config} {a : Addr} :
    isDevice c a = true ↔ inSfrArea a = true ∧ isControl a = false ∧
      ∃ f, sfrAt c a = some f ∧ f.behaviour = .device := by
  simp [isDevice, Option.any_eq_true, and_assoc]

theorem device_calls {s : State} {a : Addr} {v : Byte} (h : isDevice s.cfg a = true) :
    valueAt s a = Config.sfrRead s.sfrLog a ∧ noteRead s a = { s with sfrLog := .read a :: s.sfrLog } ∧
      noteWrite s a v = { s with sfrLog := .write a v :: s.sfrLog } := by
  simp only [valueAt, noteRead, noteWrite, h, if_true, and_self]

theorem sameHidden_putByte (s : State) (a : Addr) (v : Byte) : SameHidden s (putByte s a v) :=
  ⟨putByte_cfg .., putByte_nmis .., putByte_nmiPending .., putByte_mode .., putByte_sfrLog .., putByte_freeCount ..⟩

theorem SameHidden.trans {s t u : State} (h : SameHidden s t) (g : SameHidden t u) : SameHidden s u := by
  obtain ⟨h1, h2, h3, h4, h5, h6⟩ := h
  obtain ⟨g1, g2, g3, g4, g5, g6⟩ := g
  exact ⟨g1.trans h1, g2.trans h2, g3.trans h3, g4.trans h4, g5.trans h5, g6.trans h6⟩

/-- A store changes its byte and nothing else (20_memory R73). -/
theorem putByte_effect (s : State) (a : Addr) (v : Byte) :
    Effect s (putByte s a v) s.pc s.hold [(a, stored a v)] :=
  ⟨putByte_pc .., putByte_hold .., sameHidden_putByte .., byteAt_putByte s a v⟩

/-- The store of a word changes its two bytes, the low one first, and nothing else (20_memory R75). -/
theorem putWord_effect (s : State) (a b : Addr) (lo hi : Byte) :
    Effect s (putByte (putByte s a lo) b hi) s.pc s.hold [(a, stored a lo), (b, stored b hi)] :=
  ⟨by simp, by simp, (sameHidden_putByte ..).trans (sameHidden_putByte ..), fun c => by
    rw [byteAt_putByte, byteAt_putByte]; rfl⟩

theorem sp_bytes (s : State) : byteAt s spHighAddr ++ byteAt s spLowAddr = s.sp := by
  have hlo : byteAt s spLowAddr = loByte s.sp := by simp [byteAt]
  have hhi : byteAt s spHighAddr = hiByte s.sp := by simp [byteAt]
  rw [hlo, hhi]
  exact mkWord_bytes s.sp

/-- Settles O6, from what a load and a store of one byte answer. -/
theorem bytesAreStoredAndRead : Obligations.BytesAreStoredAndRead := by
  intro s u a v
  refine ⟨byteAt_psw s, sp_bytes s, load8_of_readable,
    fun h => ⟨_, store8_of_writable v h, putByte_effect (noteWrite s a v) a v⟩, ?_, device_calls, fun h => ?_⟩
  · rw [isDevice_iff, inSfrArea_iff, ← Bool.not_eq_true, isControl_iff]
    simp only [not_or, and_assoc]
  · obtain ⟨hvalue, hread, hwrite⟩ := plain_of_not_device h
    exact ⟨hvalue, hread, hwrite v⟩

/-- Settles O7, from what a load and a store of a word answer. -/
theorem wordsAreLittleEndian : Obligations.WordsAreLittleEndian := by
  intro s a v
  refine ⟨load16_of_readable, fun h h' => ?_,
    fun h h' => ⟨_, store16_of_writable v h h', putWord_effect (noteWriteWord s a v) a (a + 1) (loByte v) (hiByte v)⟩⟩
  obtain ⟨hvalue, hread, hwrite⟩ := plainWord_of_not_device h h'
  exact ⟨hvalue, hread, hwrite v⟩

/-! Operands (20_memory R82 to R87). -/

theorem zext16_toNat (v : Byte) : (zext16 v).toNat = v.toNat := by
  have := v.isLt
  simp only [zext16, BitVec.toNat_setWidth]
  omega

/-- An offset is added as a positive number, modulo 65536 (20_memory R86). -/
theorem add_zext16_toNat (w : Word) (v : Byte) : (w + zext16 v).toNat = (w.toNat + v.toNat) % 65536 := by
  rw [BitVec.toNat_add, zext16_toNat]

theorem sfrAddr_toNat (o : Byte) : (sfrAddr o).toNat = 0xFF00 + o.toNat := by
  have := o.isLt
  rw [sfrAddr, add_zext16_toNat]
  change (0xFF00 + o.toNat) % 65536 = _
  omega

theorem saddrAddr_toNat (o : Byte) :
    (saddrAddr o).toNat = if 0x20 ≤ o.toNat then 0xFE00 + o.toNat else 0xFF00 + o.toNat := by
  have := o.isLt
  unfold saddrAddr
  split
  · rw [add_zext16_toNat]
    change (0xFE00 + o.toNat) % 65536 = _
    omega
  · exact sfrAddr_toNat o

/-- RBS is RBS1 over RBS0 (10_state R26). -/
theorem bank_toNat (s : State) : (bank s).toNat = 2 * (s.psw.getLsbD 5).toNat + (s.psw.getLsbD 3).toNat := by
  change (BitVec.ofBool (s.psw.getLsbD 5) ++ BitVec.ofBool (s.psw.getLsbD 3)).toNat = _
  cases s.psw.getLsbD 5 <;> cases s.psw.getLsbD 3 <;> rfl

/-- Settles O9, form by form. -/
theorem effectiveAddresses : Obligations.EffectiveAddresses := by
  intro s o a
  exact ⟨fun h => (saddrAddr_toNat o).trans (if_pos h), fun h => (saddrAddr_toNat o).trans (if_neg (by omega)),
    sfrAddr_toNat o, rfl, rfl, rfl, add_zext16_toNat .., add_zext16_toNat .., add_zext16_toNat .., bank_toNat s⟩

end Sys2Proof.Machine
end

section
/-! The accesses that stop the machine (60_exceptions R401). -/

namespace Sys2Proof.Machine

variable {s : State} {m : MemOperand} {x : BitPlace} {op : AluOp} {bit : BitOp} {i : Instr} {n : BitVec 3} {v : Bool}
  {o d j : Byte} {w : Word} {e : BitVec 11} {c : BitVec 5} {p : RegPair} {f : Fault}

/-! Operands that name no sfr, and odd words. -/

/-- Every form with an sfr operand stops on an offset D0H to DFH (20_memory R83). -/
theorem sfrForms_fault (h : 0xD0 ≤ o.toNat ∧ o.toNat ≤ 0xDF) :
    ∀ k ∈ [Instr.movSfrImm o d, .movASfr o, .movSfrA o, .xchASfr o, .movwSfrpWord o w, .movwAxSfrp o, .movwSfrpAx o,
      bitIntoCy bit n (.sfr o), cyIntoBit n (.sfr o), constantIntoBit v n (.sfr o), branchIfBit v j n (.sfr o),
      branchAndClearBit j n (.sfr o)], exec k s = .fault (.sfrOffset s.pc (sfrAddr o)) := by
  have hbyte : byteOperand s (.sfr o) = _ := byteOperand_of_invalid h
  have hword := wordOperand_of_byteOperand_error hbyte
  have hload : loadOperand s .byte (.sfr o) = _ := loadOperand_of_byteOperand_error hbyte
  have hbits := bitForms_fault (bit := bit) (n := n) (v := v) (j := j) (x := .sfr o) (bitByte_of_invalid (s := s) h)
  simp only [List.forall_mem_cons] at hbits ⊢
  exact ⟨movImm_fault (.inl hbyte), movToA_fault hload, movFromA_fault (.inl hbyte), xchMem_fault (.inl hbyte),
    movwStore_fault_of_operand hword, movwToAx_fault_of_operand hword, movwStore_fault_of_operand hword,
    hbits⟩

theorem movwForms_fault_of_odd
    (hi : movwLoad m = some i ∨ movwStoreAx m = some i ∨ movwStoreWord w m = some i) (hm : Named m)
    (h : (effAddr s m).getLsbD 0 = true) : exec i s = .fault (.oddWord s.pc (effAddr s m)) := by
  have hword := wordOperand_of_odd hm h
  obtain hi | hi | hi := hi
  · rw [exec_movwLoad hi]; exact movwToAx_fault_of_operand hword
  · rw [exec_movwStoreAx hi]; exact movwStore_fault_of_operand hword
  · rw [exec_movwStoreWord hi]; exact movwStore_fault_of_operand hword

/-! Words and bytes that cannot be accessed. -/

theorem movwLoad_fault (hi : movwLoad m = some i) (hm : Named m) (he : (effAddr s m).getLsbD 0 = false)
    (h : checkRead s .word (effAddr s m) = .error f ∨
      Readable s .word (effAddr s m) ∧ checkRead s .word (effAddr s m + 1) = .error f) : exec i s = .fault f := by
  rw [exec_movwLoad hi]
  exact movwToAx_fault_of_load hm he (load16_eq_error.2 h)

theorem movwStores_fault (hi : movwStoreAx m = some i ∨ movwStoreWord w m = some i) (hm : Named m)
    (he : (effAddr s m).getLsbD 0 = false)
    (h : checkWrite s .word (effAddr s m) = .error f ∨
      Writable s .word (effAddr s m) ∧ checkWrite s .word (effAddr s m + 1) = .error f) : exec i s = .fault f := by
  obtain hi | hi := hi
  · rw [exec_movwStoreAx hi]; exact movwStore_fault_of_store hm he (store16_eq_error.2 h)
  · rw [exec_movwStoreWord hi]; exact movwStore_fault_of_store hm he (store16_eq_error.2 h)

theorem byteLoads_fault (hm : Named m) (h : checkRead s .byte (effAddr s m) = .error f) :
    exec (movLoad m) s = .fault f ∧ exec (xchMemory m) s = .fault f ∧
      (aluMemory op m = some i → exec i s = .fault f) := by
  have hload := loadOperand_of_unreadable hm h
  refine ⟨?_, ?_, fun hi => ?_⟩
  · rw [exec_movLoad]; exact movToA_fault hload
  · rw [exec_xchMemory]; exact xchMem_fault (.inr ⟨hm, .inl h⟩)
  · rw [exec_aluMemory hi]; exact aluFromMem_fault hload

theorem byteStores_fault (hm : Named m) (h : checkWrite s .byte (effAddr s m) = .error f) :
    exec (movStore m) s = .fault f ∧ (movStoreImm d m = some i → exec i s = .fault f) ∧
      (Readable s .byte (effAddr s m) → exec (xchMemory m) s = .fault f) := by
  refine ⟨?_, fun hi => ?_, fun hr => ?_⟩
  · obtain ⟨hold, he⟩ := exec_movStore m s
    exact he.trans (movFromA_fault (.inr ⟨hm, h⟩))
  · obtain ⟨hold, he⟩ := exec_movStoreImm hi s
    exact he.trans (movImm_fault (.inr ⟨hm, h⟩))
  · rw [exec_xchMemory]; exact xchMem_fault (.inr ⟨hm, .inr ⟨trivial, hr, h⟩⟩)

/-- INC, DEC and DBNZ read and write their byte; so does an 8-bit operation on saddr but CMP. -/
theorem saddrUpdates_fault (h : UpdateStops s .byte (.saddr o) True f) :
    exec (.incSaddr o) s = .fault f ∧ exec (.decSaddr o) s = .fault f ∧ exec (.dbnzSaddr o j) s = .fault f :=
  ⟨stepMem_fault h, stepMem_fault h, countMem_fault h⟩

theorem aluSaddr_fault (h : UpdateStops s .byte (.saddr o) (op ≠ .cmp) f) : exec (aluSaddr op o d) s = .fault f := by
  rw [exec_aluSaddr]; exact aluOnMem_fault h

theorem digitRotates_fault (ha : (effAddr s .hl).toNat < 0xFF00)
    (h : checkRead s .byte (effAddr s .hl) = .error f ∨
      Readable s .byte (effAddr s .hl) ∧ checkWrite s .byte (effAddr s .hl) = .error f) :
    exec .ror4 s = .fault f ∧ exec .rol4 s = .fault f := by
  have hrotate : ∀ g, rotateDigits g 2 s = .fault f := fun _ => rotateDigits_fault (inSfrArea_eq_false_iff.2 ha) h
  have hror4 : exec .ror4 s = execRor4 s := rfl
  have hrol4 : exec .rol4 s = execRol4 s := rfl
  rw [hror4, hrol4]
  exact ⟨hrotate _, hrotate _⟩

theorem bitWrites_fault (hx : x.Named) (hr : Readable s .bit (x.addr s))
    (hw : checkWrite s .bit (x.addr s) = .error f) :
    exec (cyIntoBit n x) s = .fault f ∧ exec (constantIntoBit v n x) s = .fault f ∧
      (bitOf (valueAt s (x.addr s)) n = true → exec (branchAndClearBit j n x) s = .fault f) := by
  refine ⟨?_, ?_, fun hb => ?_⟩
  · rw [exec_cyIntoBit]; exact bitFromValue_fault (writeBit_of_unwritable hx hr hw)
  · obtain ⟨hold, he⟩ := exec_constantIntoBit v n x s
    exact he.trans (bitFromValue_fault (writeBit_of_unwritable hx hr hw))
  · rw [exec_branchAndClearBit]; exact branchAndClear_fault_of_one hx hr hw hb

/-! The stack. -/

theorem pushWord_fault (h : ∀ w, push16 s w = .error f) :
    exec (.pushRp p) s = .fault f ∧ exec (.call w) s = .fault f ∧ exec (.callf e) s = .fault f ∧
      exec (.callt c) s = .fault f :=
  ⟨outcome_eq_fault.2 (bind_eq_error.2 (.inl (h _))), callTo_fault (h _), callTo_fault (h _), callTo_fault (h _)⟩

theorem pushForms_fault_first (h : inIhram s.cfg (s.sp - 1) = false) :
    ∀ k ∈ [Instr.pushPsw, .pushRp p, .call w, .callf e, .callt c, .brk],
      exec k s = .fault (.stackOutside s.pc (s.sp - 1)) := by
  have hpush : ∀ v, push8 s v = .error (.stackOutside s.pc (s.sp - 1)) := fun v => push8_eq_error.2 ⟨h, rfl⟩
  obtain ⟨hrp, hcall, hcallf, hcallt⟩ := pushWord_fault (p := p) (w := w) (e := e) (c := c)
    (fun v => push16_eq_error.2 (.inl ⟨h, rfl⟩))
  simp only [List.forall_mem_cons, List.not_mem_nil, false_implies, implies_true, and_true]
  exact ⟨outcome_eq_fault.2 (bind_eq_error.2 (.inl (hpush _))), hrp, hcall, hcallf, hcallt,
    outcome_eq_fault.2 (enterVector_error (.inl (hpush _)))⟩

/-- BRK with room for PSW but not for the whole return address. -/
theorem brk_fault (h : inIhram s.cfg (s.sp - 1) = true)
    (h' : inIhram s.cfg (s.sp - 1 - 1) = false ∧ .stackOutside s.pc (s.sp - 1 - 1) = f ∨
      inIhram s.cfg (s.sp - 1 - 1) = true ∧ inIhram s.cfg (s.sp - 1 - 1 - 1) = false ∧
        .stackOutside s.pc (s.sp - 1 - 1 - 1) = f) : exec .brk s = .fault f := by
  refine outcome_eq_fault.2 (enterVector_error (.inr ⟨_, push8_of_room _ h, push16_eq_error.2 ?_⟩))
  rw [pushed_sp h, putByte_cfg, putByte_pc]
  exact h'

theorem sub_sub_one (a : Addr) : a - 1 - 1 = a - 2 := by bv_omega

theorem sub_two_sub_one (a : Addr) : a - 2 - 1 = a - 3 := by bv_omega

theorem pushForms_fault_second (h : inIhram s.cfg (s.sp - 1) = true) (h' : inIhram s.cfg (s.sp - 2) = false) :
    ∀ k ∈ [Instr.pushRp p, .call w, .callf e, .callt c, .brk],
      exec k s = .fault (.stackOutside s.pc (s.sp - 2)) := by
  rw [← sub_sub_one] at h' ⊢
  obtain ⟨hrp, hcall, hcallf, hcallt⟩ := pushWord_fault (p := p) (w := w) (e := e) (c := c)
    (fun v => push16_eq_error.2 (.inr ⟨h, h', rfl⟩))
  simp only [List.forall_mem_cons, List.not_mem_nil, false_implies, implies_true, and_true]
  exact ⟨hrp, hcall, hcallf, hcallt, brk_fault h (.inl ⟨h', rfl⟩)⟩

theorem brk_fault_third (h : StackRoom s 2) (h' : inIhram s.cfg (s.sp - 3) = false) :
    exec .brk s = .fault (.stackOutside s.pc (s.sp - 3)) := by
  have h1 : inIhram s.cfg (s.sp - 1) = true := h 0 (by decide)
  have h2 : inIhram s.cfg (s.sp - 2) = true := h 1 (by decide)
  refine brk_fault h1 (.inr ?_)
  rw [sub_sub_one, sub_two_sub_one]
  exact ⟨h2, h', rfl⟩

/-- The instructions that pop a word first stop where it cannot be popped. -/
theorem popWord_fault (h : pop16 s = .error f) :
    ∀ k ∈ [Instr.popRp p, .ret, .reti, .retb], exec k s = .fault f := by
  have hret : returnFromVector s = .error f := returnFromVector_error (.inl h)
  simp only [List.forall_mem_cons, List.not_mem_nil, false_implies, implies_true, and_true]
  exact ⟨outcome_eq_fault.2 (bind_eq_error.2 (.inl h)), outcome_eq_fault.2 (bind_eq_error.2 (.inl h)),
    outcome_eq_fault.2 (bind_eq_error.2 (.inl hret)), outcome_eq_fault.2 hret⟩

theorem popForms_fault_first (h : inIhram s.cfg s.sp = false) :
    ∀ k ∈ [Instr.popPsw, .popRp p, .ret, .reti, .retb], exec k s = .fault (.stackOutside s.pc s.sp) :=
  List.forall_mem_cons.2 ⟨outcome_eq_fault.2 (bind_eq_error.2 (.inl (pop8_eq_error.2 ⟨h, rfl⟩))),
    popWord_fault (pop16_eq_error.2 (.inl ⟨h, rfl⟩))⟩

theorem returns_fault_third (h : StackHas s 2) (h' : inIhram s.cfg (s.sp + 2) = false) :
    exec .reti s = .fault (.stackOutside s.pc (s.sp + 2)) ∧ exec .retb s = .fault (.stackOutside s.pc (s.sp + 2)) := by
  have h0 : inIhram s.cfg s.sp = true := by simpa using h 0 (by decide)
  have h1 : inIhram s.cfg (s.sp + 1) = true := h 1 (by decide)
  have hsp : s.sp + 1 + 1 = s.sp + 2 := by bv_omega
  rw [← hsp] at h' ⊢
  have hret : returnFromVector s = .error (.stackOutside s.pc (s.sp + 1 + 1)) :=
    returnFromVector_error (.inr ⟨_, _, pop16_eq_ok.2 ⟨h0, h1, rfl, rfl⟩, pop8_eq_error.2 ⟨h', rfl⟩⟩)
  exact ⟨outcome_eq_fault.2 (bind_eq_error.2 (.inl hret)), outcome_eq_fault.2 hret⟩

/-- Settles O58, clause by clause. -/
theorem accessFaults : Obligations.AccessFaults := by
  intro s m x op bit i n v o d j w e c p f ea sa stops
  refine ⟨?sfr, ?odd, movwLoad_fault, movwStores_fault, byteLoads_fault, byteStores_fault, ?saddrRead, ?saddrWrite,
    ?rotates, fun hx h => bitForms_fault (bitByte_of_unreadable hx h), bitWrites_fault, ?push1, ?push2, ?push3, ?pop1,
    ?pop2, ?pop3⟩
  case sfr => rintro h rfl; exact sfrForms_fault h
  case odd => rintro hi hm h rfl; exact movwForms_fault_of_odd hi hm h
  case saddrRead =>
    exact fun h => ⟨aluSaddr_fault (.inr ⟨trivial, .inl h⟩), saddrUpdates_fault (.inr ⟨trivial, .inl h⟩)⟩
  case saddrWrite =>
    exact fun hr hw => ⟨fun hop => aluSaddr_fault (.inr ⟨trivial, .inr ⟨hop, hr, hw⟩⟩),
      saddrUpdates_fault (.inr ⟨trivial, .inr ⟨trivial, hr, hw⟩⟩)⟩
  case rotates => rintro rfl ha h; exact digitRotates_fault ha h
  case push1 => rintro h rfl; exact pushForms_fault_first h
  case push2 => rintro h h' rfl; exact pushForms_fault_second h h'
  case push3 => rintro h h' rfl; exact brk_fault_third h h'
  case pop1 => rintro h rfl; exact popForms_fault_first h
  case pop2 => rintro h h' rfl; exact popWord_fault (pop16_eq_error.2 (.inr ⟨h, h', rfl⟩))
  case pop3 => rintro h h' rfl; exact returns_fault_third h h'

end Sys2Proof.Machine
end

section
/-! SUPPORT. Decoding undoes encoding, over whatever bytes follow (30_encoding R101, R102, R106, R110). -/

namespace Sys2Proof

open Sys2Proof.Machine

theorem bitVec3_cases {motive : BitVec 3 → Prop} (n : BitVec 3) (zero : motive 0) (one : motive 1) (two : motive 2)
    (three : motive 3) (four : motive 4) (five : motive 5) (six : motive 6) (seven : motive 7) : motive n := by
  obtain ⟨k⟩ := n
  fin_cases k <;> assumption

/-- The address of CALLF is the field over the operand byte. -/
theorem append_extract (f : BitVec 11) : f.extractLsb' 8 3 ++ f.extractLsb' 0 8 = f := by
  apply BitVec.eq_of_getLsbD_eq
  intro k hk
  simp only [BitVec.getLsbD_append, BitVec.getLsbD_extractLsb']
  by_cases h : k < 8
  · simp [h]
  · have hk' : k - 8 < 3 := by omega
    simp [h, hk', Nat.add_sub_cancel' (Nat.le_of_not_lt h)]

/-- The instruction's bytes decode to it, whatever bytes follow. -/
def RoundTrips (i : Instr) : Prop := ∀ rest, decode (encode i ++ rest) = .ok (i, rest)

/-- An operand word is put together again from its two bytes. -/
theorem RoundTrips.of_word {g : Word → Instr} {w : Word}
    (h : ∀ rest, decode (encode (g w) ++ rest) = .ok (g (mkWord (hiByte w) (loByte w)), rest)) : RoundTrips (g w) := by
  rw [mkWord_bytes] at h
  exact h

/-- A general row is read where its operand is not that of a named row (30_encoding R106, R108). -/
theorem decode_of_general {bytes rest : List Byte} {i named : Instr} {o offset : Byte} (ho : (o != offset) = true)
    (h : decode bytes = .ok (if o = offset then named else i, rest)) : decode bytes = .ok (i, rest) := by
  rw [if_neg (bne_iff_ne.1 ho)] at h
  exact h

/-- Decoding undoes encoding: the tables answer by evaluation once the fields of the opcode byte are known, with the
operand bytes left open. -/
theorem roundTrips_of_wf {i : Instr} (hwf : i.wf = true) : RoundTrips i := by
  cases i with
  -- A register or a pair in the opcode byte
  | movRImm r | incR r | decR r | addRA r | addcRA r | subRA r | subcRA r | andRA r | orRA r | xorRA r | cmpRA r =>
    intro rest
    cases r <;> rfl
  | movAR r | movRA r | xchAR r | addAR r | addcAR r | subAR r | subcAR r | andAR r | orAR r | xorAR r | cmpAR r =>
    intro rest
    cases r with
    | a => cases hwf
    | _ => rfl
  | incwRp p | decwRp p | pushRp p | popRp p =>
    intro rest
    cases p <;> rfl
  | movwAxRp p | movwRpAx p | xchwAxRp p =>
    intro rest
    cases p with
    | ax => cases hwf
    | _ => rfl
  | movwRpWord p w =>
    refine .of_word (g := .movwRpWord p) fun rest => ?_
    cases p <;> rfl
  -- A bit number in the opcode byte
  | mov1CySfrBit o n | mov1CyABit n | mov1CyPswBit n | mov1CyHlBit n | mov1SfrBitCy o n | mov1ABitCy n | mov1PswBitCy n
  | mov1HlBitCy n | and1CySfrBit o n | and1CyABit n | and1CyPswBit n | and1CyHlBit n | or1CySfrBit o n | or1CyABit n
  | or1CyPswBit n | or1CyHlBit n | xor1CySfrBit o n | xor1CyABit n | xor1CyPswBit n | xor1CyHlBit n | set1SfrBit o n
  | set1ABit n | set1HlBit n | clr1SfrBit o n | clr1ABit n | clr1HlBit n | btSfrBit o n | btABit n | btPswBit n
  | btHlBit n | bfSfrBit o n | bfABit n | bfPswBit n | bfHlBit n | btclrSfrBit o n | btclrABit n | btclrPswBit n
  | btclrHlBit n =>
    intro rest
    cases n using bitVec3_cases <;> rfl
  | mov1CySaddrBit o n | mov1SaddrBitCy o n | and1CySaddrBit o n | or1CySaddrBit o n | xor1CySaddrBit o n
  | set1SaddrBit o n | clr1SaddrBit o n | btSaddrBit o n | bfSaddrBit o n | btclrSaddrBit o n =>
    intro rest
    cases n using bitVec3_cases <;> exact decode_of_general hwf rfl
  | set1PswBit n | clr1PswBit n =>
    intro rest
    cases n using bitVec3_cases with
    | seven => cases hwf
    | _ => rfl
  -- Another field in the opcode byte
  | callf f =>
    intro rest
    conv_rhs => rw [← append_extract f]
    change decode ((0x0C ||| placed 4 (f.extractLsb' 8 3)) :: f.extractLsb' 0 8 :: rest) = _
    generalize f.extractLsb' 8 3 = hi
    cases hi using bitVec3_cases <;> rfl
  | callt t =>
    intro rest
    obtain ⟨k⟩ := t
    fin_cases k <;> rfl
  | sel b =>
    intro rest
    obtain ⟨k⟩ := b
    fin_cases k <;> rfl
  -- An offset that may be that of a named row
  | movSaddrImm o | movASaddr o | movSaddrA o | movwAxSaddrp o | movwSaddrpAx o =>
    exact fun _ => decode_of_general hwf rfl
  | movwSaddrpWord o w => exact .of_word (g := .movwSaddrpWord o) fun _ => decode_of_general hwf rfl
  -- A word behind the opcode byte
  | movAAbs | movAbsA | xchAAbs | movwAxAbs | movwAbsAx | addAAbs | addcAAbs | subAAbs | subcAAbs | andAAbs | orAAbs
  | xorAAbs | cmpAAbs | addwAxWord | subwAxWord | cmpwAxWord | call | movwSpWord | brAbs =>
    exact .of_word fun _ => rfl
  | movwSfrpWord o => exact .of_word (g := .movwSfrpWord o) fun _ => rfl
  -- Bytes, or nothing, behind the opcode bytes
  | _ => exact fun _ => rfl

end Sys2Proof
end

section
/-! The obligation about the bytes at PC (20_memory R74; 30_encoding R101). -/

namespace Sys2Proof.Machine

theorem add_ofNat_succ (a : Addr) (k : Nat) : a + BitVec.ofNat 16 (k + 1) = a + 1 + BitVec.ofNat 16 k := by
  rw [Nat.add_comm, BitVec.ofNat_add, BitVec.add_assoc]
  rfl

/-- Bytes that stand from `a` upward and can be fetched are what a fetch reads first. -/
theorem fetchBytes_of_stands {s : State} (bytes : List Byte) : ∀ (a : Addr) (n : Nat), bytes.length ≤ n →
    (∀ k < bytes.length, fetchFault s (a + BitVec.ofNat 16 k) = none ∧
      byteAt s (a + BitVec.ofNat 16 k) = bytes.getD k 0) →
    ∃ rest, fetchBytes s a n = bytes ++ rest := by
  induction bytes with
  | nil => exact fun a n _ _ => ⟨_, rfl⟩
  | cons b bytes ih =>
    intro a n hn h
    obtain ⟨n, rfl⟩ : ∃ m, n = m + 1 := ⟨n - 1, by simp only [List.length_cons] at hn; omega⟩
    obtain ⟨hfetch, hbyte⟩ := h 0 (by simp)
    have hzero : a + BitVec.ofNat 16 0 = a := BitVec.add_zero a
    rw [hzero] at hfetch hbyte
    obtain ⟨rest, hrest⟩ := ih (a + 1) n (by simpa using hn) (fun k hk => by
      rw [← add_ofNat_succ]
      exact h (k + 1) (by simpa using hk))
    refine ⟨rest, ?_⟩
    simp only [fetchBytes, hfetch, hbyte, hrest]
    rfl

theorem length_le_four (i : Instr) : i.length ≤ 4 := by cases i <;> exact Nat.le_of_ble_eq_true rfl

/-- Where the encoding of a well-formed instruction stands at PC in bytes that can be fetched, it is fetched. -/
theorem fetch_of_stands {s : State} {i : Instr} (hwf : i.wf = true)
    (h : ∀ k < i.length, fetchFault s (s.pc + BitVec.ofNat 16 k) = none ∧
      byteAt s (s.pc + BitVec.ofNat 16 k) = (encode i).getD k 0) : fetch s = .ok i := by
  obtain ⟨rest, hrest⟩ := fetchBytes_of_stands (encode i) s.pc 4 ((encode_length i).trans_le (length_le_four i))
    (by rw [encode_length]; exact h)
  have hwindow : fetchWindow s = encode i ++ rest := hrest
  simp only [fetch, interpret, hwindow, roundTrips_of_wf hwf rest]

/-- Settles O51: a step runs the instruction that it fetches. -/
theorem stepRunsEncodedBytes : Obligations.StepRunsEncodedBytes := by
  intro s i hwf hsel hmode h
  exact step_of_fetch hsel hmode (fetch_of_stands hwf h)

end Sys2Proof.Machine
end

section
/-! SUPPORT. What decodes is what the encoder writes: no bit of an opcode or operand byte is ignored (30_encoding R102,
R106, R107, R127). Each row of the decoder's tables is checked on its own, for every byte that selects it. -/

namespace Sys2Proof

open Sys2Proof.Machine

/-! The fields of an opcode byte, and the register or pair that a field selects (10_state R24; 30_encoding R104). -/

theorem Reg8.code_ofCode (n : BitVec 3) : (Reg8.ofCode n).code = n := by
  cases n using bitVec3_cases <;> rfl

theorem Reg8.ofCode_eq_a {n : BitVec 3} : Reg8.ofCode n = .a ↔ n = 1 := by
  cases n using bitVec3_cases <;> decide

theorem RegPair.code_ofCode (n : BitVec 2) : (RegPair.ofCode n).code = n := by
  obtain ⟨k⟩ := n
  fin_cases k <;> rfl

theorem RegPair.ofCode_eq_ax {n : BitVec 2} : RegPair.ofCode n = .ax ↔ n = 0 := by
  obtain ⟨k⟩ := n
  fin_cases k <;> decide

theorem no_field : ∀ b : Byte, b &&& 0xFF ||| 0 = b := by decide

theorem reg_field : ∀ b : Byte, b &&& 0xF8 ||| placed 0 (fieldOf 3 0 b) = b := by decide

theorem pair_field : ∀ b : Byte, b &&& 0xF9 ||| placed 1 (fieldOf 2 1 b) = b := by decide

theorem bit_field : ∀ b : Byte, b &&& 0x8F ||| placed 4 (fieldOf 3 4 b) = b := by decide

theorem entry_field : ∀ b : Byte, b &&& 0xC1 ||| placed 1 (fieldOf 5 1 b) = b := by decide

theorem bank_fields : ∀ b : Byte,
    b &&& 0xD7 ||| (placed 5 (fieldOf 1 5 b) ||| placed 3 (fieldOf 1 3 b)) = b := by decide

/-! What a row must fulfil. -/

/-- The bytes are the encoding of the instruction, which is well formed. -/
structure Instr.EncodedAs (i : Instr) (bytes : List Byte) : Prop where
  wf : i.wf = true
  bytes_eq : encode i = bytes

/-- Whatever operand bytes complete the form, they and the opcode bytes `code` encode the instruction completed. -/
inductive Form.Sound (code : List Byte) : Form → Prop
  | none {i : Instr} (h : i.EncodedAs code) : Sound code (.none i)
  | one {f : Byte → Instr} (h : ∀ x, (f x).EncodedAs (code ++ [x])) : Sound code (.one f)
  | two {f : Byte → Byte → Instr} (h : ∀ x y, (f x y).EncodedAs (code ++ [x, y])) : Sound code (.two f)
  | three {f : Byte → Byte → Byte → Instr} (h : ∀ x y z, (f x y z).EncodedAs (code ++ [x, y, z])) :
      Sound code (.three f)

/-- The row reads encodings only; `before` are the bytes before its opcode byte. -/
def Row.Sound (before : List Byte) (row : Row) : Prop :=
  ∀ b, row.selects b = true → (row.form b).Sound (before ++ [b])

/-- Every row of the table reads encodings only. -/
def TableSound (before : List Byte) (rows : List Row) : Prop := ∀ row ∈ rows, row.Sound before

theorem tableSound_nil {before : List Byte} : TableSound before [] ↔ True := by simp [TableSound]

theorem tableSound_cons {before : List Byte} {row : Row} {rows : List Row} :
    TableSound before (row :: rows) ↔ row.Sound before ∧ TableSound before rows := List.forall_mem_cons

theorem tableSound_append {before : List Byte} {rows others : List Row} :
    TableSound before (rows ++ others) ↔ TableSound before rows ∧ TableSound before others := List.forall_mem_append

/-! The shapes of operand bytes that the tables share. -/

namespace Form.Sound

variable {code : List Byte} {offset : Byte}

/-- A word behind the opcode, its low byte first. -/
theorem word {f : Word → Instr} (h : ∀ w, (f w).EncodedAs (code ++ [loByte w, hiByte w])) :
    Form.Sound code (.two fun l h => f (mkWord h l)) :=
  .two fun x y => by simpa using h (mkWord y x)

/-- An offset that has a row of its own is read as that row (30_encoding R106, R108). -/
theorem oneNamed {named : Instr} {general : Byte → Instr} (hn : named.EncodedAs (code ++ [offset]))
    (hg : ∀ o, (o != offset) = true → (general o).EncodedAs (code ++ [o])) :
    Form.Sound code (.one fun o => if o = offset then named else general o) := by
  refine .one fun o => ?_
  split_ifs with ho
  · exact ho ▸ hn
  · exact hg o (bne_iff_ne.2 ho)

/-- The same, with a byte behind the offset. -/
theorem twoNamed {named : Byte → Instr} {general : Byte → Byte → Instr}
    (hn : ∀ x, (named x).EncodedAs (code ++ [offset, x]))
    (hg : ∀ o x, (o != offset) = true → (general o x).EncodedAs (code ++ [o, x])) :
    Form.Sound code (.two fun o x => if o = offset then named x else general o x) := by
  refine .two fun o x => ?_
  split_ifs with ho
  · exact ho ▸ hn x
  · exact hg o x (bne_iff_ne.2 ho)

/-- A word behind an offset. -/
theorem offsetWord {f : Byte → Word → Instr} (h : ∀ o w, (f o w).EncodedAs (code ++ [o, loByte w, hiByte w])) :
    Form.Sound code (.three fun o l h => f o (mkWord h l)) :=
  .three fun o x y => by simpa using h o (mkWord y x)

/-- An offset that has a row of its own, with a word behind it. -/
theorem wordNamed {named : Word → Instr} {general : Byte → Word → Instr}
    (hn : ∀ w, (named w).EncodedAs (code ++ [offset, loByte w, hiByte w]))
    (hg : ∀ o w, (o != offset) = true → (general o w).EncodedAs (code ++ [o, loByte w, hiByte w])) :
    Form.Sound code (.three fun o l h => if o = offset then named (mkWord h l) else general o (mkWord h l)) := by
  refine offsetWord (f := fun o w => if o = offset then named w else general o w) fun o w => ?_
  split_ifs with ho
  · exact ho ▸ hn w
  · exact hg o w (bne_iff_ne.2 ho)

end Form.Sound

/-! The fields of an opcode byte that the tables share. -/

theorem Row.selects_iff {row : Row} {b : Byte} :
    row.selects b = true ↔ b &&& row.mask = row.pat ∧ row.skip b = false := by
  simp [Row.selects]

namespace Row.Sound

variable {before : List Byte} {mask pat : Byte} {skip : Byte → Bool} {form : Byte → Form}

/-- A byte that selects a row is the row's fixed bits with the fields in the places of the others. -/
theorem of_field {field : Byte → Byte} (hf : ∀ b, b &&& mask ||| field b = b)
    (h : ∀ b, skip b = false → (form b).Sound (before ++ [pat ||| field b])) :
    Row.Sound before { mask, pat, skip, form } := by
  intro b hb
  obtain ⟨hpat, hskip⟩ := selects_iff.1 hb
  have hbyte : pat ||| field b = b := (congrArg (· ||| field b) hpat).symm.trans (hf b)
  have hform := h b hskip
  rwa [hbyte] at hform

/-- No field: the byte is the row's. -/
theorem fixed {form : Form} (h : form.Sound (before ++ [pat])) :
    Row.Sound before { mask := 0xFF, pat, form := fun _ => form } :=
  of_field no_field fun _ _ => by simpa using h

/-- A register in bits 2 to 0. -/
theorem reg (h : ∀ b, (form b).Sound (before ++ [pat ||| placed 0 (Reg8.ofCode (fieldOf 3 0 b)).code])) :
    Row.Sound before { mask := 0xF8, pat, form } :=
  of_field (fun b => by rw [Reg8.code_ofCode, reg_field]) fun b _ => h b

/-- A register that is not A (30_encoding R107). -/
theorem otherReg (h : ∀ b, (Reg8.ofCode (fieldOf 3 0 b) != .a) = true →
      (form b).Sound (before ++ [pat ||| placed 0 (Reg8.ofCode (fieldOf 3 0 b)).code])) :
    Row.Sound before { mask := 0xF8, pat, skip := fun b => fieldOf 3 0 b = 1, form } :=
  of_field (fun b => by rw [Reg8.code_ofCode, reg_field])
    fun b hb => h b (bne_iff_ne.2 (mt Reg8.ofCode_eq_a.1 (of_decide_eq_false hb)))

/-- A register pair in bits 2 and 1. -/
theorem pair (h : ∀ b, (form b).Sound (before ++ [pat ||| placed 1 (RegPair.ofCode (fieldOf 2 1 b)).code])) :
    Row.Sound before { mask := 0xF9, pat, form } :=
  of_field (fun b => by rw [RegPair.code_ofCode, pair_field]) fun b _ => h b

/-- A pair that is not AX (30_encoding R107). -/
theorem otherPair (h : ∀ b, (RegPair.ofCode (fieldOf 2 1 b) != .ax) = true →
      (form b).Sound (before ++ [pat ||| placed 1 (RegPair.ofCode (fieldOf 2 1 b)).code])) :
    Row.Sound before { mask := 0xF9, pat, skip := fun b => fieldOf 2 1 b = 0, form } :=
  of_field (fun b => by rw [RegPair.code_ofCode, pair_field])
    fun b hb => h b (bne_iff_ne.2 (mt RegPair.ofCode_eq_ax.1 (of_decide_eq_false hb)))

/-- A bit number in bits 6 to 4. -/
theorem bit (h : ∀ b, (form b).Sound (before ++ [pat ||| placed 4 (fieldOf 3 4 b)])) :
    Row.Sound before { mask := 0x8F, pat, form } := of_field bit_field fun b _ => h b

end Row.Sound

/-! The rows whose field or operand is put together from parts, or has a row of its own for one value. -/

theorem set1Psw_encodedAs (n : BitVec 3) :
    (if n = 7 then .ei else .set1PswBit n : Instr).EncodedAs [0x0A ||| placed 4 n, pswOffset] := by
  cases n using bitVec3_cases <;> exact ⟨rfl, rfl⟩

theorem clr1Psw_encodedAs (n : BitVec 3) :
    (if n = 7 then .di else .clr1PswBit n : Instr).EncodedAs [0x0B ||| placed 4 n, pswOffset] := by
  cases n using bitVec3_cases <;> exact ⟨rfl, rfl⟩

theorem extract_high_append {m k : Nat} (x : BitVec m) (y : BitVec k) : (x ++ y).extractLsb' k m = x := by
  apply BitVec.eq_of_getLsbD_eq
  intro i hi
  simp [BitVec.getLsbD_append, hi]

theorem extract_low_append {m k : Nat} (x : BitVec m) (y : BitVec k) : (x ++ y).extractLsb' 0 k = y := by
  apply BitVec.eq_of_getLsbD_eq
  intro i hi
  simp [BitVec.getLsbD_append, hi]

theorem callf_encodedAs (n : BitVec 3) (g : Byte) : (Instr.callf (n ++ g)).EncodedAs [0x0C ||| placed 4 n, g] :=
  ⟨rfl, congrArg₂ (fun n g => [0x0C ||| placed 4 n, g]) (extract_high_append n g) (extract_low_append n g)⟩

theorem sel_encodedAs (x y : BitVec 1) :
    (Instr.sel (x ++ y)).EncodedAs [0x61, 0xD0 ||| (placed 5 x ||| placed 3 y)] :=
  ⟨rfl, (congrArg₂ (fun x y => [0x61, 0xD0 ||| placed 5 x ||| placed 3 y]) (extract_high_append x y)
    (extract_low_append x y)).trans (by rw [BitVec.or_assoc])⟩

/-! The tables, row by row. -/

theorem rowsTransfer8_sound : TableSound [] rowsTransfer8 := by
  simp only [rowsTransfer8, tableSound_cons, tableSound_nil, and_true]
  exact ⟨.reg fun _ => .one fun _ => ⟨rfl, rfl⟩,
    .fixed (.twoNamed (fun _ => ⟨rfl, rfl⟩) fun _ _ ho => ⟨ho, rfl⟩), .fixed (.two fun _ _ => ⟨rfl, rfl⟩),
    .otherReg fun _ hr => .none ⟨hr, rfl⟩, .otherReg fun _ hr => .none ⟨hr, rfl⟩,
    .fixed (.oneNamed ⟨rfl, rfl⟩ fun _ ho => ⟨ho, rfl⟩), .fixed (.oneNamed ⟨rfl, rfl⟩ fun _ ho => ⟨ho, rfl⟩),
    .fixed (.one fun _ => ⟨rfl, rfl⟩), .fixed (.one fun _ => ⟨rfl, rfl⟩),
    .fixed (.word fun _ => ⟨rfl, rfl⟩), .fixed (.word fun _ => ⟨rfl, rfl⟩),
    .fixed (.none ⟨rfl, rfl⟩), .fixed (.none ⟨rfl, rfl⟩), .fixed (.none ⟨rfl, rfl⟩), .fixed (.none ⟨rfl, rfl⟩),
    .fixed (.one fun _ => ⟨rfl, rfl⟩), .fixed (.one fun _ => ⟨rfl, rfl⟩),
    .fixed (.none ⟨rfl, rfl⟩), .fixed (.none ⟨rfl, rfl⟩), .fixed (.none ⟨rfl, rfl⟩), .fixed (.none ⟨rfl, rfl⟩),
    .otherReg fun _ hr => .none ⟨hr, rfl⟩, .fixed (.one fun _ => ⟨rfl, rfl⟩), .fixed (.one fun _ => ⟨rfl, rfl⟩),
    .fixed (.word fun _ => ⟨rfl, rfl⟩), .fixed (.none ⟨rfl, rfl⟩), .fixed (.none ⟨rfl, rfl⟩),
    .fixed (.one fun _ => ⟨rfl, rfl⟩)⟩

/-- Each of the eight operations has the same six rows. -/
theorem rowsAlu8_sound : TableSound [] rowsAlu8 := by
  simp only [rowsAlu8, tableSound_cons, tableSound_nil]
  iterate 8
    refine ⟨.fixed (.one fun _ => ⟨rfl, rfl⟩), .fixed (.two fun _ _ => ⟨rfl, rfl⟩), .fixed (.one fun _ => ⟨rfl, rfl⟩),
      .fixed (.word fun _ => ⟨rfl, rfl⟩), .fixed (.none ⟨rfl, rfl⟩), .fixed (.one fun _ => ⟨rfl, rfl⟩), ?_⟩
  trivial

theorem rowsTransfer16_sound : TableSound [] rowsTransfer16 := by
  simp only [rowsTransfer16, tableSound_cons, tableSound_nil, and_true]
  exact ⟨.pair fun _ => .word fun _ => ⟨rfl, rfl⟩,
    .fixed (.wordNamed (fun _ => ⟨rfl, rfl⟩) fun _ _ ho => ⟨ho, rfl⟩), .fixed (.offsetWord fun _ _ => ⟨rfl, rfl⟩),
    .fixed (.oneNamed ⟨rfl, rfl⟩ fun _ ho => ⟨ho, rfl⟩), .fixed (.oneNamed ⟨rfl, rfl⟩ fun _ ho => ⟨ho, rfl⟩),
    .fixed (.one fun _ => ⟨rfl, rfl⟩), .fixed (.one fun _ => ⟨rfl, rfl⟩),
    .otherPair fun _ hp => .none ⟨hp, rfl⟩, .otherPair fun _ hp => .none ⟨hp, rfl⟩,
    .fixed (.word fun _ => ⟨rfl, rfl⟩), .fixed (.word fun _ => ⟨rfl, rfl⟩), .otherPair fun _ hp => .none ⟨hp, rfl⟩⟩

theorem rowsAlu16_sound : TableSound [] rowsAlu16 := by
  simp only [rowsAlu16, tableSound_cons, tableSound_nil, and_true]
  exact ⟨.fixed (.word fun _ => ⟨rfl, rfl⟩), .fixed (.word fun _ => ⟨rfl, rfl⟩), .fixed (.word fun _ => ⟨rfl, rfl⟩)⟩

theorem rowsIncDec_sound : TableSound [] rowsIncDec := by
  simp only [rowsIncDec, tableSound_cons, tableSound_nil, and_true]
  exact ⟨.reg fun _ => .none ⟨rfl, rfl⟩, .fixed (.one fun _ => ⟨rfl, rfl⟩), .reg fun _ => .none ⟨rfl, rfl⟩,
    .fixed (.one fun _ => ⟨rfl, rfl⟩), .pair fun _ => .none ⟨rfl, rfl⟩, .pair fun _ => .none ⟨rfl, rfl⟩⟩

theorem rowsRotate_sound : TableSound [] rowsRotate := by
  simp only [rowsRotate, tableSound_cons, tableSound_nil, and_true]
  exact ⟨.fixed (.none ⟨rfl, rfl⟩), .fixed (.none ⟨rfl, rfl⟩), .fixed (.none ⟨rfl, rfl⟩), .fixed (.none ⟨rfl, rfl⟩)⟩

theorem rowsBit_sound : TableSound [] rowsBit := by
  simp only [rowsBit, tableSound_cons, tableSound_nil, and_true]
  exact ⟨.bit fun _ => .oneNamed (set1Psw_encodedAs _) fun _ ho => ⟨ho, rfl⟩,
    .bit fun _ => .oneNamed (clr1Psw_encodedAs _) fun _ ho => ⟨ho, rfl⟩,
    .fixed (.none ⟨rfl, rfl⟩), .fixed (.none ⟨rfl, rfl⟩), .fixed (.none ⟨rfl, rfl⟩)⟩

theorem rowsCall_sound : TableSound [] rowsCall := by
  simp only [rowsCall, tableSound_cons, tableSound_nil, and_true]
  exact ⟨.fixed (.word fun _ => ⟨rfl, rfl⟩), .bit fun _ => .one fun _ => callf_encodedAs _ _,
    .of_field entry_field fun _ _ => .none ⟨rfl, rfl⟩, .fixed (.none ⟨rfl, rfl⟩), .fixed (.none ⟨rfl, rfl⟩),
    .fixed (.none ⟨rfl, rfl⟩), .fixed (.none ⟨rfl, rfl⟩), .fixed (.none ⟨rfl, rfl⟩), .pair fun _ => .none ⟨rfl, rfl⟩,
    .fixed (.none ⟨rfl, rfl⟩), .pair fun _ => .none ⟨rfl, rfl⟩⟩

theorem rowsBranch_sound : TableSound [] rowsBranch := by
  simp only [rowsBranch, tableSound_cons, tableSound_nil, and_true]
  exact ⟨.fixed (.word fun _ => ⟨rfl, rfl⟩), .fixed (.one fun _ => ⟨rfl, rfl⟩), .fixed (.one fun _ => ⟨rfl, rfl⟩),
    .fixed (.one fun _ => ⟨rfl, rfl⟩), .fixed (.one fun _ => ⟨rfl, rfl⟩), .fixed (.one fun _ => ⟨rfl, rfl⟩),
    .bit fun _ => .twoNamed (fun _ => ⟨rfl, rfl⟩) fun _ _ ho => ⟨ho, rfl⟩, .fixed (.one fun _ => ⟨rfl, rfl⟩),
    .fixed (.one fun _ => ⟨rfl, rfl⟩), .fixed (.two fun _ _ => ⟨rfl, rfl⟩)⟩

theorem rowsControl_sound : TableSound [] rowsControl := by
  simp only [rowsControl, tableSound_cons, tableSound_nil, and_true]
  exact .fixed (.none ⟨rfl, rfl⟩)

theorem rowsFirst_sound : TableSound [] rowsFirst := by
  simp only [rowsFirst, tableSound_append, rowsTransfer8_sound, rowsTransfer16_sound, rowsAlu8_sound, rowsAlu16_sound,
    rowsIncDec_sound, rowsRotate_sound, rowsBit_sound, rowsCall_sound, rowsBranch_sound, rowsControl_sound, and_self]

/-- Twenty-three rows without an operand; BT; then BF and BTCLR, with the same four rows each. -/
theorem rowsAfter31_sound : TableSound [0x31] rowsAfter31 := by
  simp only [rowsAfter31, tableSound_cons, tableSound_nil]
  iterate 23 refine ⟨.fixed (.none ⟨rfl, rfl⟩), ?_⟩
  refine ⟨.bit fun _ => .two fun _ _ => ⟨rfl, rfl⟩, .bit fun _ => .one fun _ => ⟨rfl, rfl⟩,
    .bit fun _ => .one fun _ => ⟨rfl, rfl⟩, ?_⟩
  iterate 2
    refine ⟨.bit fun _ => .twoNamed (fun _ => ⟨rfl, rfl⟩) fun _ _ ho => ⟨ho, rfl⟩,
      .bit fun _ => .two fun _ _ => ⟨rfl, rfl⟩, .bit fun _ => .one fun _ => ⟨rfl, rfl⟩,
      .bit fun _ => .one fun _ => ⟨rfl, rfl⟩, ?_⟩
  trivial

/-- The two register forms of each of the eight operations; ADJBA and ADJBS; seven forms with a bit of A; SEL. -/
theorem rowsAfter61_sound : TableSound [0x61] rowsAfter61 := by
  simp only [rowsAfter61, tableSound_cons, tableSound_nil]
  iterate 8 refine ⟨.otherReg fun _ hr => .none ⟨hr, rfl⟩, .reg fun _ => .none ⟨rfl, rfl⟩, ?_⟩
  iterate 2 refine ⟨.fixed (.none ⟨rfl, rfl⟩), ?_⟩
  iterate 7 refine ⟨.bit fun _ => .none ⟨rfl, rfl⟩, ?_⟩
  exact ⟨.of_field bank_fields fun _ _ => .none (sel_encodedAs _ _), trivial⟩

/-- A bit of saddr, sfr and [HL] for each of the five forms with CY; of sfr and [HL] for SET1 and CLR1; HALT and STOP. -/
theorem rowsAfter71_sound : TableSound [0x71] rowsAfter71 := by
  simp only [rowsAfter71, tableSound_cons, tableSound_nil]
  iterate 5
    refine ⟨.bit fun _ => .oneNamed ⟨rfl, rfl⟩ fun _ ho => ⟨ho, rfl⟩, .bit fun _ => .one fun _ => ⟨rfl, rfl⟩,
      .bit fun _ => .none ⟨rfl, rfl⟩, ?_⟩
  iterate 2 refine ⟨.bit fun _ => .one fun _ => ⟨rfl, rfl⟩, .bit fun _ => .none ⟨rfl, rfl⟩, ?_⟩
  exact ⟨.fixed (.none ⟨rfl, rfl⟩), .fixed (.none ⟨rfl, rfl⟩), trivial⟩

/-! From the tables to the decoder. -/

theorem encodes_of_complete {code bytes rest : List Byte} {form : Form} {i : Instr} (hs : form.Sound code)
    (h : form.complete bytes = .ok (i, rest)) : i.wf = true ∧ code ++ bytes = encode i ++ rest := by
  cases hs with
  | none hi =>
    cases h
    exact ⟨hi.wf, by rw [hi.bytes_eq]⟩
  | one hi =>
    match bytes, h with
    | x :: _, rfl => exact ⟨(hi x).wf, by simp [(hi x).bytes_eq]⟩
  | two hi =>
    match bytes, h with
    | x :: y :: _, rfl => exact ⟨(hi x y).wf, by simp [(hi x y).bytes_eq]⟩
  | three hi =>
    match bytes, h with
    | x :: y :: z :: _, rfl => exact ⟨(hi x y z).wf, by simp [(hi x y z).bytes_eq]⟩

theorem selectForm_eq_some {rows : List Row} {b : Byte} {form : Form} (h : selectForm rows b = some form) :
    ∃ row ∈ rows, row.selects b = true ∧ row.form b = form := by
  obtain ⟨row, hrow, hform⟩ := Option.map_eq_some_iff.1 h
  exact ⟨row, List.mem_of_find?_eq_some hrow, List.find?_some (p := fun row : Row => row.selects b) hrow, hform⟩

theorem decodeIn_eq_ok {rows : List Row} {before bytes rest : List Byte} {b : Byte} {i : Instr} :
    decodeIn rows before b bytes = .ok (i, rest) ↔
      ∃ form, selectForm rows b = some form ∧ form.complete bytes = .ok (i, rest) := by
  unfold decodeIn
  split <;> simp [*]

theorem encodes_of_decodeIn {rows : List Row} {before bytes rest : List Byte} {b : Byte} {i : Instr}
    (ht : TableSound before rows) (h : decodeIn rows before b bytes = .ok (i, rest)) :
    i.wf = true ∧ before ++ b :: bytes = encode i ++ rest := by
  obtain ⟨form, hform, hc⟩ := decodeIn_eq_ok.1 h
  obtain ⟨row, hrow, hb, rfl⟩ := selectForm_eq_some hform
  simpa using encodes_of_complete (ht row hrow b hb) hc

theorem prefixRows_eq_some {b : Byte} {rows : List Row} (h : prefixRows b = some rows) :
    b = 0x31 ∧ rows = rowsAfter31 ∨ b = 0x61 ∧ rows = rowsAfter61 ∨ b = 0x71 ∧ rows = rowsAfter71 := by
  unfold prefixRows at h
  split_ifs at h with h31 h61 h71 <;> cases h
  · exact .inl ⟨h31, rfl⟩
  · exact .inr (.inl ⟨h61, rfl⟩)
  · exact .inr (.inr ⟨h71, rfl⟩)

theorem prefixRows_sound {b : Byte} {rows : List Row} (h : prefixRows b = some rows) : TableSound [b] rows := by
  obtain ⟨rfl, rfl⟩ | ⟨rfl, rfl⟩ | ⟨rfl, rfl⟩ := prefixRows_eq_some h
  · exact rowsAfter31_sound
  · exact rowsAfter61_sound
  · exact rowsAfter71_sound

/-! The decoder on a first byte that opens a second table, or opens none (30_encoding R106). -/

theorem decode_cons_of_no_prefix {b : Byte} (h : prefixRows b = none) (bytes : List Byte) :
    decode (b :: bytes) = decodeIn rowsFirst [] b bytes := by
  simp only [decode, h]

theorem decode_prefix_alone {b : Byte} {rows : List Row} (h : prefixRows b = some rows) :
    decode [b] = .error .truncated := by
  simp only [decode, h]

theorem decode_cons_of_prefix {b : Byte} {rows : List Row} (h : prefixRows b = some rows) (b2 : Byte)
    (bytes : List Byte) : decode (b :: b2 :: bytes) = decodeIn rows [b] b2 bytes := by
  simp only [decode, h]

theorem encodes_of_decode {bytes rest : List Byte} {i : Instr} (h : decode bytes = .ok (i, rest)) :
    i.wf = true ∧ bytes = encode i ++ rest := by
  match bytes with
  | [] => cases h
  | b :: bytes =>
    cases hp : prefixRows b with
    | none => exact encodes_of_decodeIn rowsFirst_sound (decode_cons_of_no_prefix hp bytes ▸ h)
    | some rows =>
      match bytes with
      | [] => rw [decode_prefix_alone hp] at h; cases h
      | b2 :: bytes => exact encodes_of_decodeIn (prefixRows_sound hp) (decode_cons_of_prefix hp b2 bytes ▸ h)

/-! Which codes select no row, and what the decoder answers then (30_encoding R125). -/

theorem complete_ne_undefined {form : Form} {bytes code : List Byte} :
    form.complete bytes ≠ .error (.undefined code) := by
  unfold Form.complete
  split <;> simp

theorem decodeIn_eq_undefined {rows : List Row} {before bytes code : List Byte} {b : Byte} :
    decodeIn rows before b bytes = .error (.undefined code) ↔ selectForm rows b = none ∧ before ++ [b] = code := by
  unfold decodeIn
  split <;> simp [*, complete_ne_undefined]

theorem selectForm_eq_none {rows : List Row} {b : Byte} :
    selectForm rows b = none ↔ rows.any (fun row => row.selects b) = false := by
  simp [selectForm]

theorem undefinedFirst_eq : ∀ b : Byte,
    ((prefixRows b).isNone && !rowsFirst.any (fun row => row.selects b)) = undefinedFirst b := by decide

theorem definedAfter31_eq : ∀ b : Byte, rowsAfter31.any (fun row => row.selects b) = definedAfter31 b := by decide

theorem definedAfter61_eq : ∀ b : Byte, rowsAfter61.any (fun row => row.selects b) = definedAfter61 b := by decide

theorem definedAfter71_eq : ∀ b : Byte, rowsAfter71.any (fun row => row.selects b) = definedAfter71 b := by decide

/-- A second byte is refused exactly if it selects no row of the table that the first byte opens. -/
theorem decode_prefix_eq_undefined {b b2 : Byte} {rows : List Row} {bytes : List Byte} (h : prefixRows b = some rows) :
    decode (b :: b2 :: bytes) = .error (.undefined [b, b2]) ↔ rows.any (fun row => row.selects b2) = false := by
  rw [decode_cons_of_prefix h, decodeIn_eq_undefined, selectForm_eq_none, List.singleton_append, eq_self, and_true]

/-- A first byte is refused exactly if it opens no table and selects no row. -/
theorem decode_first_eq_undefined {b : Byte} {bytes : List Byte} :
    decode (b :: bytes) = .error (.undefined [b]) ↔ undefinedFirst b = true := by
  rw [← undefinedFirst_eq, Bool.and_eq_true, Bool.not_eq_true', Option.isNone_iff_eq_none]
  cases hp : prefixRows b with
  | none => simp [decode_cons_of_no_prefix hp, decodeIn_eq_undefined, selectForm_eq_none]
  | some rows =>
    refine iff_of_false (fun h => ?_) (by simp)
    match bytes with
    | [] => rw [decode_prefix_alone hp] at h; cases h
    | b2 :: bytes =>
      rw [decode_cons_of_prefix hp, decodeIn_eq_undefined] at h
      simp at h

end Sys2Proof
end

section
/-! The obligations about the encoding alone (30_encoding R106, R110, R125, R127). -/

namespace Sys2Proof

/-- Settles O1. -/
theorem decodeEncode : Obligations.DecodeEncode := fun _ rest hwf => roundTrips_of_wf hwf rest

/-- Settles O2, from the soundness of every row of the decoder's tables. -/
theorem encodeDecode : Obligations.EncodeDecode := fun _ _ _ h => encodes_of_decode h

/-- Settles O3 by running the decoder. -/
theorem decodesWrittenWords : Obligations.DecodesWrittenWords :=
  ⟨rfl, rfl, rfl, rfl, rfl, rfl, rfl, rfl, rfl, rfl⟩

/-- Settles O4: a code is refused exactly if it selects no row of the table it is looked up in. -/
theorem undefinedCodesAreRefused : Obligations.UndefinedCodesAreRefused := fun _ _ =>
  ⟨decode_first_eq_undefined, (decode_prefix_eq_undefined rfl).trans (by rw [definedAfter31_eq]),
    (decode_prefix_eq_undefined rfl).trans (by rw [definedAfter61_eq]),
    (decode_prefix_eq_undefined rfl).trans (by rw [definedAfter71_eq])⟩

end Sys2Proof
end

section
/-! SUPPORT. What the instruction at PC is, by the bytes that can be fetched there (20_memory R74; 30_encoding R125). -/

namespace Sys2Proof

open Sys2Proof.Machine

/-! A decoding that answers does not look behind the bytes it answers for. -/

/-- Bytes that decode, or are refused, do so whatever follows them. -/
def DecodesAlike (r r' : Except DecodeError (Instr × List Byte)) (more : List Byte) : Prop :=
  r = .error .truncated ∨ r' = r.map (fun p => (p.1, p.2 ++ more))

theorem complete_append (form : Form) (bytes more : List Byte) :
    DecodesAlike (form.complete bytes) (form.complete (bytes ++ more)) more := by
  cases form with
  | none => exact .inr rfl
  | one =>
    match bytes with
    | [] => exact .inl rfl
    | _ :: _ => exact .inr rfl
  | two =>
    match bytes with
    | [] | [_] => exact .inl rfl
    | _ :: _ :: _ => exact .inr rfl
  | three =>
    match bytes with
    | [] | [_] | [_, _] => exact .inl rfl
    | _ :: _ :: _ :: _ => exact .inr rfl

theorem decodeIn_append (rows : List Row) (before : List Byte) (b : Byte) (bytes more : List Byte) :
    DecodesAlike (decodeIn rows before b bytes) (decodeIn rows before b (bytes ++ more)) more := by
  unfold decodeIn
  split
  · exact complete_append _ bytes more
  · exact .inr rfl

theorem decode_append (bytes more : List Byte) : DecodesAlike (decode bytes) (decode (bytes ++ more)) more := by
  match bytes with
  | [] => exact .inl rfl
  | b :: bytes =>
    cases hp : prefixRows b with
    | none =>
      rw [List.cons_append, decode_cons_of_no_prefix hp, decode_cons_of_no_prefix hp]
      exact decodeIn_append ..
    | some rows =>
      match bytes with
      | [] => exact .inl (decode_prefix_alone hp)
      | b2 :: bytes =>
        rw [List.cons_append, List.cons_append, decode_cons_of_prefix hp, decode_cons_of_prefix hp]
        exact decodeIn_append ..

/-- The bytes of an instruction without its last ones are no instruction yet. -/
theorem decode_take_encode {i : Instr} {k : Nat} (hwf : i.wf = true) (hk : k < i.length) :
    decode ((encode i).take k) = .error .truncated := by
  have hall : decode ((encode i).take k ++ (encode i).drop k) = .ok (i, []) := by
    rw [List.take_append_drop]
    simpa using roundTrips_of_wf hwf []
  obtain h | h := decode_append ((encode i).take k) ((encode i).drop k)
  · exact h
  rw [hall] at h
  cases hd : decode ((encode i).take k) with
  | error e => rw [hd] at h; cases h
  | ok p =>
    rw [hd] at h
    injection h with h
    have hnil : (encode i).drop k = [] := (List.append_eq_nil_iff.1 (congrArg Prod.snd h).symm).2
    rw [List.drop_eq_nil_iff, encode_length] at hnil
    omega

namespace Machine

variable {s : State} {i : Instr}

/-! What the bytes at PC stand for. -/

theorem fetch_of_decode {rest : List Byte} (h : decode (fetchWindow s) = .ok (i, rest)) : fetch s = .ok i := by
  simp only [fetch, interpret, h]

/-- A product may decode an unassigned code as another one (30_encoding R125; 92 D6). -/
theorem fetch_of_alias {code other rest : List Byte} (h : decode (fetchWindow s) = .error (.undefined code))
    (ha : aliasOf s.cfg code = some other) (ho : decode (other ++ (fetchWindow s).drop code.length) = .ok (i, rest)) :
    fetch s = .ok i := by
  simp only [fetch, interpret, h, ha, ho]

theorem fetch_of_undefined {code : List Byte} (h : decode (fetchWindow s) = .error (.undefined code))
    (ha : aliasOf s.cfg code = none) : fetch s = .error (.undefinedOpcode s.pc code) := by
  simp only [fetch, interpret, h, ha]

theorem fetch_of_truncated (h : decode (fetchWindow s) = .error .truncated) : fetch s = .error (truncatedFault s) := by
  simp only [fetch, interpret, h]

/-- Without an acknowledgement, a step in Run mode stops where the instruction at PC cannot be fetched. -/
theorem step_of_fetch_error {f : Fault} (hsel : selected s = none) (hmode : s.mode = .run) (hf : fetch s = .error f) :
    step s = .fault f := by
  simp only [step, hsel, hmode, hf]

/-! Which bytes a fetch reads. -/

theorem fetchBytes_succ {a : Addr} (h : fetchFault s a = none) (n : Nat) :
    fetchBytes s a (n + 1) = byteAt s a :: fetchBytes s (a + 1) n := by
  simp only [fetchBytes, h]

theorem fetchBytes_of_fault {a : Addr} {f : Fault} (h : fetchFault s a = some f) (n : Nat) :
    fetchBytes s a n = [] := by
  cases n with
  | zero => rfl
  | succ n => simp only [fetchBytes, h]

/-- Where the byte behind them cannot be fetched, the bytes that stand from `a` upward are all that a fetch reads. -/
theorem fetchBytes_before_fault (bytes : List Byte) {f : Fault} : ∀ (a : Addr) (n : Nat), bytes.length ≤ n →
    (∀ k < bytes.length, fetchFault s (a + BitVec.ofNat 16 k) = none ∧
      byteAt s (a + BitVec.ofNat 16 k) = bytes.getD k 0) →
    fetchFault s (a + BitVec.ofNat 16 bytes.length) = some f → fetchBytes s a n = bytes := by
  induction bytes with
  | nil =>
    intro a n _ _ hf
    rw [List.length_nil, BitVec.add_zero] at hf
    exact fetchBytes_of_fault hf n
  | cons b bytes ih =>
    intro a n hn h hf
    obtain ⟨n, rfl⟩ : ∃ m, n = m + 1 := ⟨n - 1, by simp only [List.length_cons] at hn; omega⟩
    obtain ⟨hfetch, hbyte⟩ := h 0 (by simp)
    rw [BitVec.add_zero] at hfetch hbyte
    rw [List.length_cons, add_ofNat_succ] at hf
    have hrest : fetchBytes s (a + 1) n = bytes := ih (a + 1) n (by simpa using hn) (fun k hk => by
      rw [← add_ofNat_succ]
      exact h (k + 1) (by simpa using hk)) hf
    rw [fetchBytes_succ hfetch, hbyte, hrest]
    rfl

end Machine

end Sys2Proof
end

section
/-! The obligations about the instruction at PC (20_memory R74; 30_encoding R106, R125). -/

namespace Sys2Proof.Machine

theorem applyHoldSet_of_nothing_added {c : Config} {i : Instr} {r : Result} (h : c.moreHold = []) :
    applyHoldSet c i r = r := by
  cases r <;> simp [applyHoldSet, h]

/-- Settles O50: both kinds of code that a step runs are fetched, and a step runs what it fetches. -/
theorem stepRunsDecoded : Obligations.StepRunsDecoded := by
  intro s i rest hsel hmode h
  have hf : fetch s = .ok i := by
    obtain ⟨h, -⟩ | ⟨code, other, h, ha, ho⟩ := h
    · exact fetch_of_decode h
    · exact fetch_of_alias h ha ho
  rw [step_of_fetch hsel hmode hf]
  refine ⟨fun t ht => ?_, fun f hfault => ?_, applyHoldSet_of_nothing_added⟩
  · rw [ht]; rfl
  · rw [hfault]; rfl

/-- The bytes of an instruction up to one that cannot be fetched stop the step with that byte's fault. -/
theorem step_of_unfetchable {s : State} {i : Instr} {k : Nat} {f : Fault} (hsel : selected s = none)
    (hmode : s.mode = .run) (hwf : i.wf = true) (hk : k < i.length)
    (h : ∀ j < k, fetchFault s (s.pc + BitVec.ofNat 16 j) = none ∧
      byteAt s (s.pc + BitVec.ofNat 16 j) = (encode i).getD j 0)
    (hf : fetchFault s (s.pc + BitVec.ofNat 16 k) = some f) : step s = .fault f := by
  have hlength : ((encode i).take k).length = k := by
    rw [List.length_take, encode_length, Nat.min_eq_left hk.le]
  have hwindow : fetchWindow s = (encode i).take k := by
    refine fetchBytes_before_fault _ s.pc 4 ?_ (fun j hj => ?_) (by rw [hlength]; exact hf)
    · rw [hlength]
      exact hk.le.trans (length_le_four i)
    · rw [hlength] at hj
      rw [List.getD_eq_getElem?_getD, List.getElem?_take_of_lt hj, ← List.getD_eq_getElem?_getD]
      exact h j hj
  have hfault : truncatedFault s = f := by
    simp only [truncatedFault, hwindow, hlength, hf]
  rw [← hfault]
  exact step_of_fetch_error hsel hmode (fetch_of_truncated (hwindow ▸ decode_take_encode hwf hk))

/-- Settles O60, clause by clause. -/
theorem fetchFaults : Obligations.FetchFaults := by
  intro s hsel hmode b b2
  refine ⟨fun i k f hwf hk => step_of_unfetchable hsel hmode hwf hk, fun hb hu ha => ?_, fun hb hb2 hu ha => ?_⟩
  · have hwindow : fetchWindow s = b :: fetchBytes s (s.pc + 1) 3 := fetchBytes_succ hb 3
    exact step_of_fetch_error hsel hmode (fetch_of_undefined (hwindow ▸ decode_first_eq_undefined.2 hu) ha)
  · have hwindow : fetchWindow s = b :: b2 :: fetchBytes s (s.pc + 1 + 1) 2 := by
      rw [fetchWindow, fetchBytes_succ hb, fetchBytes_succ hb2]
    refine step_of_fetch_error hsel hmode (fetch_of_undefined ?_ ha)
    obtain ⟨-, h31, h61, h71⟩ := undefinedCodesAreRefused b2 (fetchBytes s (s.pc + 1 + 1) 2)
    obtain ⟨hpre, hu⟩ | ⟨hpre, hu⟩ | ⟨hpre, hu⟩ := hu <;> rw [hwindow, hpre]
    · exact h31.2 hu
    · exact h61.2 hu
    · exact h71.2 hu

end Sys2Proof.Machine
end

section
/-! SUPPORT. The short direct operands with offset 1EH and 1CH are PSW and SP (10_state R31, R38; 92 D1). -/

namespace Sys2Proof.Machine

variable {s : State} {n : BitVec 3}

/-! PSW as a byte operand. -/

theorem effAddr_saddr_psw : effAddr s (.saddr pswOffset) = pswAddr := rfl

theorem store_psw (s : State) (v : Byte) : putByte (noteWrite s pswAddr v) pswAddr v = setPsw s v := by
  obtain ⟨-, -, hwrite⟩ := plain_of_not_device (isDevice_psw s.cfg)
  rw [hwrite, putByte, if_pos rfl]

theorem movToA_psw (len : Addr) :
    movToA (.saddr pswOffset) len s = .next (advance (setReg s (bank s) .a s.psw) len) := by
  obtain ⟨hvalue, hread, -⟩ := plain_of_not_device (isDevice_psw s.cfg)
  rw [movToA_next (m := .saddr pswOffset) len trivial (readable_psw s .byte), effAddr_saddr_psw, hvalue, hread,
    byteAt_psw]

theorem movImm_psw (v : Byte) (len : Addr) (hold : Bool) :
    movImm (.saddr pswOffset) v len hold s = .next (advance (setPsw s v) len hold) := by
  rw [movImm_next (m := .saddr pswOffset) v len hold trivial (writable_psw s .byte), effAddr_saddr_psw, store_psw]

theorem movFromA_psw (len : Addr) (hold : Bool) :
    movFromA (.saddr pswOffset) len hold s = .next (advance (setPsw s (reg s (bank s) .a)) len hold) := by
  rw [movFromA_next (m := .saddr pswOffset) len hold trivial (writable_psw s .byte), effAddr_saddr_psw, store_psw]

/-! PSW as the byte of a bit operand: the families see the operand through `bitByte` and `putBitByte` only. -/

theorem bitByte_saddr_psw (s : State) : bitByte s (.mem (.saddr pswOffset)) = bitByte s .psw := by
  obtain ⟨hvalue, hread, -⟩ := plain_of_not_device (isDevice_psw s.cfg)
  refine (loadOperand_of_readable (m := .saddr pswOffset) trivial (readable_psw s .bit)).trans ?_
  rw [effAddr_saddr_psw, hvalue, hread, byteAt_psw]
  rfl

theorem putBitByte_saddr_psw (s : State) (v : Byte) :
    putBitByte s (.mem (.saddr pswOffset)) v = putBitByte s .psw v :=
  (store8_of_writable v (writable_psw s .bit)).trans (congrArg Except.ok (store_psw s v))

theorem bitToCy_psw (f : Bool → Bool → Bool) (len : Addr) :
    bitToCy f .psw n len s = bitToCy f (.mem (.saddr pswOffset)) n len s := by
  simp only [bitToCy, readBit, bitByte_saddr_psw]

theorem bitFromValue_psw (v : Bool) (len : Addr) (hold : Bool) :
    bitFromValue .psw n v len hold s = bitFromValue (.mem (.saddr pswOffset)) n v len hold s := by
  simp only [bitFromValue, writeBit, bitByte_saddr_psw, putBitByte_saddr_psw]

theorem branchOnBit_psw (v : Bool) (len : Addr) (j : Byte) :
    branchOnBit v .psw n len j s = branchOnBit v (.mem (.saddr pswOffset)) n len j s := by
  simp only [branchOnBit, readBit, bitByte_saddr_psw]

theorem branchAndClear_psw (len : Addr) (j : Byte) :
    branchAndClear .psw n len j s = branchAndClear (.mem (.saddr pswOffset)) n len j s := by
  simp only [branchAndClear, bitByte_saddr_psw, putBitByte_saddr_psw]

/-! IE, as a single flag and as a bit of the PSW byte. -/

theorem mask_of_bit2 : ∀ v : Byte, bitOf v 2 = false → v &&& 0xFB = v := by decide

/-- EI and DI change one flag, where SET1 and CLR1 write the byte; bit 2 is 0 before and after (10_state R34; 92 D2). -/
theorem bitFromValue_ie (v : Bool) (len : Addr) (hold : Bool) (h : bitOf s.psw 2 = false) :
    bitFromValue .psw ieBit v len hold s = .next (advance (withPsw s (withBit s.psw ieBit v)) len hold) := by
  have hbit : bitOf (withBit s.psw ieBit v) 2 = false := by rw [bitOf_withBit, if_neg (by decide), h]
  have hset : setPsw s (withBit s.psw ieBit v) = withPsw s (withBit s.psw ieBit v) := by
    rw [setPsw, mask_of_bit2 _ hbit]
  rw [← hset]
  rfl

/-! SP as a word operand. -/

theorem effAddr_saddr_sp : effAddr s (.saddr spOffset) = spLowAddr := rfl

theorem spLow_add_one : spLowAddr + 1 = spHighAddr := rfl

theorem isControl_spLow : isControl spLowAddr = true := rfl

theorem isControl_spHigh : isControl (spLowAddr + 1) = true := rfl

theorem readable_of_control {a : Addr} (u : AccessUnit) (h : isControl a = true) : Readable s u a := by
  simp [Readable, checkRead, h]

theorem writable_of_control {a : Addr} (u : AccessUnit) (h : isControl a = true) : Writable s u a := by
  simp [Writable, checkWrite, h]

theorem plainWord_sp (s : State) :
    wordValueAt s spLowAddr = wordAt s spLowAddr ∧ noteReadWord s spLowAddr = s ∧
      ∀ v, noteWriteWord s spLowAddr v = s :=
  plainWord_of_not_device (not_device_of_control isControl_spLow) (not_device_of_control isControl_spHigh)

theorem readableWord_sp (s : State) : ReadableWord s spLowAddr :=
  ⟨by decide, readable_of_control .word isControl_spLow, readable_of_control .word isControl_spHigh⟩

theorem writableWord_sp (s : State) : WritableWord s spLowAddr :=
  ⟨by decide, writable_of_control .word isControl_spLow, writable_of_control .word isControl_spHigh⟩

theorem putWord_sp (s : State) (w : Word) :
    putByte (putByte s spLowAddr (loByte w)) spHighAddr (hiByte w) = withSp s w := by
  have hlow : putByte s spLowAddr (loByte w) = withSp s (mkWord (hiByte s.sp) (loByte w)) := by simp [putByte]
  rw [hlow]
  simp [putByte, withSp, mkWord_bytes]

theorem movwStore_sp (w : Word) (len : Addr) :
    movwStore (.saddr spOffset) w len s = .next (advance (withSp s w) len) := by
  obtain ⟨-, -, hwrite⟩ := plainWord_sp s
  rw [movwStore_next (m := .saddr spOffset) w len trivial (writableWord_sp s), effAddr_saddr_sp, hwrite, spLow_add_one,
    putWord_sp]

theorem movwToAx_sp (len : Addr) :
    movwToAx (.saddr spOffset) len s = .next (advance (setPair s (bank s) .ax s.sp) len) := by
  obtain ⟨hvalue, hread, -⟩ := plainWord_sp s
  rw [movwToAx_next (m := .saddr spOffset) len trivial (readableWord_sp s), effAddr_saddr_sp, hvalue, hread, wordAt,
    spLow_add_one, sp_bytes]

end Sys2Proof.Machine
end

section
/-! The obligation about the named rows (30_encoding R106, R127). -/

namespace Sys2Proof.Machine

/-- Settles O5: each pair runs one family's operation, on PSW or SP and on the operand mapped there. -/
theorem namedRowsAgreeWithGeneralRows : Obligations.NamedRowsAgreeWithGeneralRows := by
  intro s n d j w hbit
  simp only [List.forall_mem_cons, List.not_mem_nil, false_implies, implies_true, and_true]
  exact ⟨⟨rfl, (movImm_psw d 3 true).symm⟩, ⟨rfl, (movToA_psw 2).symm⟩, ⟨rfl, (movFromA_psw 2 true).symm⟩,
    ⟨rfl, bitToCy_psw (fun _ v => v) 3⟩, ⟨rfl, bitFromValue_psw (cy s) 3 false⟩,
    ⟨rfl, bitToCy_psw (fun c v => c && v) 3⟩, ⟨rfl, bitToCy_psw (fun c v => c || v) 3⟩,
    ⟨rfl, bitToCy_psw (fun c v => c ^^ v) 3⟩, ⟨rfl, bitFromValue_psw true 2 (n == 7)⟩,
    ⟨rfl, bitFromValue_psw false 2 (n == 7)⟩, ⟨rfl, (bitFromValue_ie true 2 true hbit).symm⟩,
    ⟨rfl, (bitFromValue_ie false 2 true hbit).symm⟩, ⟨rfl, branchOnBit_psw true 3 j⟩,
    ⟨rfl, branchOnBit_psw false 4 j⟩, ⟨rfl, branchAndClear_psw 4 j⟩, ⟨rfl, (movwStore_sp w 4).symm⟩,
    ⟨rfl, (movwStore_sp (pair s (bank s) .ax) 2).symm⟩, ⟨rfl, (movwToAx_sp 2).symm⟩⟩

end Sys2Proof.Machine
end

section
/-! SUPPORT. The effect of several updates one after another, and of the end of an instruction: with the effect of each
update (`putByte_effect`, `setReg_effect`, `setPair_effect`, `setPsw_effect`) they give that of an instruction. -/

namespace Sys2Proof.Machine

variable {i : Instr} {s base t u : State} {pc : Addr} {hold : Bool} {ws vs : List (Addr × Byte)}

/-- Writing PSW as a byte changes its byte, bit 2 kept at 0, and nothing else (10_state R34; 92 D2). -/
theorem setPsw_effect (s : State) (v : Byte) : Effect s (setPsw s v) s.pc s.hold [(pswAddr, v &&& 0xFB)] :=
  ⟨rfl, rfl, ⟨rfl, rfl, rfl, rfl, rfl, rfl⟩, byteAt_setPsw s v⟩

/-- Stores laid over stores are the stores of both, in order. -/
theorem Written.trans (h : Written s t ws) (g : Written t u vs) : Written s u (ws ++ vs) := by
  intro a
  rw [overlay_append, ← funext h]
  exact g a

/-- An update that leaves PC and `hold`, after any effect. -/
theorem Effect.trans (h : Effect s t pc hold ws) (g : Effect t u t.pc t.hold vs) : Effect s u pc hold (ws ++ vs) := by
  obtain ⟨hpc, hhold, hhidden, hwritten⟩ := h
  obtain ⟨gpc, ghold, ghidden, gwritten⟩ := g
  exact ⟨gpc.trans hpc, ghold.trans hhold, hhidden.trans ghidden, hwritten.trans gwritten⟩

/-- The end of an instruction moves PC and sets `hold`, and nothing else (10_state R28, R42). -/
theorem Effect.advance (h : Effect base t pc hold ws) (len : Addr) (hold' : Bool) :
    Effect base (advance t len hold') (pc + len) hold' ws := by
  obtain ⟨hpc, -, hhidden, hwritten⟩ := h
  exact ⟨by rw [advance_pc, hpc], rfl, hhidden, hwritten⟩

/-- An instruction that makes its updates and ends behind its own bytes. -/
theorem completes_of_advance {len : Addr} {hold' : Bool} (hexec : exec i s = .next (advance t len hold'))
    (hlen : len = BitVec.ofNat 16 i.length) (h : Effect base t s.pc hold ws) :
    Completes i s base (after i s) hold' ws := by
  rw [after, ← hlen]
  exact ⟨_, hexec, h.advance len hold'⟩

end Sys2Proof.Machine
end

section
/-! The obligations about 8-bit data transfer (40_data_transfer_8). -/

namespace Sys2Proof.Machine

variable {s : State} {m : MemOperand}

/-! Registers and PSW (40 R141, R145). -/

/-- Settles O11: each form writes one register. -/
theorem movRegisterForms : Obligations.MovRegisterForms := by
  intro s r d
  exact ⟨completes_of_advance rfl rfl (setReg_effect s (bank s) r d),
    completes_of_advance rfl rfl (setReg_effect s (bank s) .a (reg s (bank s) r)),
    completes_of_advance rfl rfl (setReg_effect s (bank s) r (reg s (bank s) .a))⟩

/-- Settles O12: two forms write PSW as a byte, the third writes A. -/
theorem movPswForms : Obligations.MovPswForms := by
  intro s d
  exact ⟨completes_of_advance rfl rfl (setPsw_effect s d),
    completes_of_advance rfl rfl (setReg_effect s (bank s) .a s.psw),
    completes_of_advance rfl rfl (setPsw_effect s (reg s (bank s) .a))⟩

/-! Memory (40 R142 to R144, R146 to R149). -/

theorem saddr_beq_saddr (o o' : Byte) : (MemOperand.saddr o == .saddr o') = (o == o') := by
  rw [Bool.eq_iff_iff, beq_iff_eq, beq_iff_eq, MemOperand.saddr.injEq]

/-- Of the stores of A, the one whose bytes are those of MOV PSW,A holds interrupts (60_exceptions R415; 92 D17). -/
theorem exec_movStore_hold (m : MemOperand) (s : State) :
    exec (movStore m) s = movFromA m (BitVec.ofNat 16 (movStore m).length) (m == .saddr pswOffset) s := by
  cases m with
  | saddr o => rw [saddr_beq_saddr]; rfl
  | _ => rfl

theorem movLoad_runs (hm : Named m) (hr : Readable s .byte (effAddr s m)) :
    RunsTo (movLoad m) s (noteRead s (effAddr s m)) [(regAddr (bank s) .a, valueAt s (effAddr s m))] :=
  completes_of_advance ((exec_movLoad m s).trans (movToA_next _ hm hr)) rfl (setReg_effect ..)

theorem movStore_completes (hm : Named m) (hw : Writable s .byte (effAddr s m)) :
    Completes (movStore m) s (noteWrite s (effAddr s m) (reg s (bank s) .a)) (after (movStore m) s)
      (m == .saddr pswOffset) [(effAddr s m, stored (effAddr s m) (reg s (bank s) .a))] :=
  completes_of_advance ((exec_movStore_hold m s).trans (movFromA_next _ _ hm hw)) rfl (putByte_effect ..)

/-- A store of immediate data, from the family's operation that the instruction runs. -/
theorem movImm_completes {i : Instr} {d : Byte} {hold : Bool}
    (hexec : exec i s = movImm m d (BitVec.ofNat 16 i.length) hold s) (hm : Named m)
    (hw : Writable s .byte (effAddr s m)) :
    Completes i s (noteWrite s (effAddr s m) d) (after i s) hold [(effAddr s m, stored (effAddr s m) d)] :=
  completes_of_advance (hexec.trans (movImm_next d _ hold hm hw)) rfl (putByte_effect ..)

/-- Settles O13, from the next state of the three operations that move a byte between A or immediate data and memory. -/
theorem movMemoryForms : Obligations.MovMemoryForms := by
  intro s m o d
  exact ⟨movLoad_runs, movStore_completes, movImm_completes (m := .saddr o) rfl trivial,
    movImm_completes (m := .sfr o) rfl⟩

/-! Exchange (40 R150). -/

/-- The two registers are written one after the other, with what both held before. -/
theorem xchAR_runs (s : State) (r : Reg8) :
    Runs (.xchAR r) s [(regAddr (bank s) .a, reg s (bank s) r), (regAddr (bank s) r, reg s (bank s) .a)] :=
  completes_of_advance rfl rfl ((setReg_effect s (bank s) .a (reg s (bank s) r)).trans (setReg_effect ..))

/-- Memory receives the old A, and then A the byte read (92 D15). -/
theorem xchMemory_runs (hm : Named m) (hr : Readable s .byte (effAddr s m)) (hw : Writable s .byte (effAddr s m)) :
    RunsTo (xchMemory m) s (noteUpdate s (effAddr s m) (reg s (bank s) .a))
      [(effAddr s m, stored (effAddr s m) (reg s (bank s) .a)), (regAddr (bank s) .a, valueAt s (effAddr s m))] :=
  completes_of_advance ((exec_xchMemory m s).trans (xchMem_next _ hm hr hw)) rfl
    ((putByte_effect ..).trans (setReg_effect ..))

/-- Settles O14, from both kinds of exchange. -/
theorem xchForms : Obligations.XchForms := by
  intro s r m
  exact ⟨xchAR_runs s r, xchMemory_runs⟩

end Sys2Proof.Machine
end

section
/-! The obligations about 16-bit data transfer (41_data_transfer_16). -/

namespace Sys2Proof.Machine

variable {s : State} {m : MemOperand} {i : Instr}

/-! Register pairs (41 R171, R176). -/

/-- The two pairs are written one after the other, with what both held before. -/
theorem xchwAxRp_runs (s : State) (p : RegPair) :
    Runs (.xchwAxRp p) s
      (pairBytes (bank s) .ax (pair s (bank s) p) ++ pairBytes (bank s) p (pair s (bank s) .ax)) :=
  completes_of_advance rfl rfl ((setPair_effect s (bank s) .ax (pair s (bank s) p)).trans (setPair_effect ..))

/-- Settles O15: each form writes one pair, but for the exchange, which writes two. -/
theorem movwRegisterForms : Obligations.MovwRegisterForms := by
  intro s p w
  exact ⟨completes_of_advance rfl rfl (setPair_effect s (bank s) p w),
    completes_of_advance rfl rfl (setPair_effect s (bank s) .ax (pair s (bank s) p)),
    completes_of_advance rfl rfl (setPair_effect s (bank s) p (pair s (bank s) .ax)), xchwAxRp_runs s p⟩

/-! Memory (41 R170, R172 to R174). -/

theorem movwLoad_runs (hi : movwLoad m = some i) (hm : Named m) (hr : ReadableWord s (effAddr s m)) :
    RunsTo i s (noteReadWord s (effAddr s m)) (pairBytes (bank s) .ax (wordValueAt s (effAddr s m))) :=
  completes_of_advance ((exec_movwLoad hi s).trans (movwToAx_next _ hm hr)) rfl (setPair_effect ..)

/-- A store of a word, whether of AX or of immediate data, from the family's operation that the instruction runs. -/
theorem movwStore_runs {w : Word} (hexec : exec i s = movwStore m w (BitVec.ofNat 16 i.length) s) (hm : Named m)
    (hw : WritableWord s (effAddr s m)) :
    RunsTo i s (noteWriteWord s (effAddr s m) w)
      [(effAddr s m, stored (effAddr s m) (loByte w)), (effAddr s m + 1, stored (effAddr s m + 1) (hiByte w))] :=
  completes_of_advance (hexec.trans (movwStore_next w _ hm hw)) rfl (putWord_effect ..)

/-! The bytes of a pair are those of its two registers (10_state R23). -/

theorem loByte_pair (s : State) (b : BitVec 2) (p : RegPair) : loByte (pair s b p) = reg s b p.lowReg :=
  loByte_mkWord ..

theorem hiByte_pair (s : State) (b : BitVec 2) (p : RegPair) : hiByte (pair s b p) = reg s b p.highReg :=
  hiByte_mkWord ..

/-- The low register of AX is X, and the high one A. -/
theorem movwStoreAx_runs (hi : movwStoreAx m = some i) (hm : Named m) (hw : WritableWord s (effAddr s m)) :
    RunsTo i s (noteWriteWord s (effAddr s m) (pair s (bank s) .ax))
      [(effAddr s m, stored (effAddr s m) (reg s (bank s) .x)),
        (effAddr s m + 1, stored (effAddr s m + 1) (reg s (bank s) .a))] := by
  have hruns := movwStore_runs (exec_movwStoreAx hi s) hm hw
  rw [loByte_pair, hiByte_pair] at hruns
  exact hruns

/-- Settles O16, from the next state of the load of AX and of the store of a word. -/
theorem movwMemoryForms : Obligations.MovwMemoryForms := by
  intro s m i w
  exact ⟨movwLoad_runs, movwStoreAx_runs, fun hi => movwStore_runs (exec_movwStoreWord hi s)⟩

end Sys2Proof.Machine
end

section
/-! SUPPORT. The 8-bit operations as families (42_operation_8 R190): the operation an instruction runs, and its
effect. -/

namespace Sys2Proof.Machine

variable {i : Instr} {s base t : State} {m : MemOperand} {op : AluOp} {ws : List (Addr × Byte)}

/-- Setting PSW without a mask changes its byte and nothing else. -/
theorem withPsw_effect (s : State) (v : Byte) : Effect s (withPsw s v) s.pc s.hold [(pswAddr, v)] :=
  ⟨rfl, rfl, ⟨rfl, rfl, rfl, rfl, rfl, rfl⟩, byteAt_withPsw s v⟩

theorem Effect.refl (s : State) : Effect s s s.pc s.hold [] :=
  ⟨rfl, rfl, ⟨rfl, rfl, rfl, rfl, rfl, rfl⟩, fun _ => rfl⟩

/-- A destination that CMP leaves alone (42 R198). -/
theorem Effect.unlessCmp (op : AluOp) (h : Effect s t s.pc s.hold ws) :
    Effect s (if op = .cmp then s else t) s.pc s.hold (unlessCmp op ws) := by
  unfold Machine.unlessCmp
  split
  · exact Effect.refl s
  · exact h

theorem exec_aluImmediate (op : AluOp) (d : Byte) (s : State) :
    exec (aluImmediate op d) s = aluOnReg op .a d (BitVec.ofNat 16 (aluImmediate op d).length) s := by
  cases op <;> rfl

theorem exec_aluAWithReg (op : AluOp) (r : Reg8) (s : State) :
    exec (aluAWithReg op r) s =
      aluOnReg op .a (reg s (bank s) r) (BitVec.ofNat 16 (aluAWithReg op r).length) s := by
  cases op <;> rfl

theorem exec_aluRegWithA (op : AluOp) (r : Reg8) (s : State) :
    exec (aluRegWithA op r) s =
      aluOnReg op r (reg s (bank s) .a) (BitVec.ofNat 16 (aluRegWithA op r).length) s := by
  cases op <;> rfl

theorem aluSaddr_length (op : AluOp) (o d : Byte) : (aluSaddr op o d).length = 3 := by cases op <;> rfl

/-- Only operands that the encoding may name have a form `op A,m` (42 R190). -/
theorem named_of_aluMemory (h : aluMemory op m = some i) : Named m := by
  cases m with
  | sfr o => cases op <;> cases h
  | _ => trivial

/-- An operation on a register, from a state `base` that has the PC of the instruction. -/
theorem aluOnReg_completes {r : Reg8} {src : Byte}
    (hexec : exec i s = aluOnReg op r src (BitVec.ofNat 16 i.length) base) (hpc : base.pc = s.pc) :
    RunsTo i s base
      (unlessCmp op [(regAddr (bank base) r, aluResult op (reg base (bank base) r) src (cy base))] ++
        [(pswAddr, aluPsw op base.psw (reg base (bank base) r) src (cy base))]) := by
  have heffect := ((setReg_effect base (bank base) r (aluResult op (reg base (bank base) r) src (cy base))).unlessCmp
    op).trans (withPsw_effect _ (aluPsw op base.psw (reg base (bank base) r) src (cy base)))
  rw [hpc] at heffect
  exact completes_of_advance (hexec.trans (aluOnReg_next ..)) rfl heffect

theorem aluMemory_runs (hi : aluMemory op m = some i) (hr : Readable s .byte (effAddr s m)) :
    RunsTo i s (noteRead s (effAddr s m))
      (unlessCmp op [(regAddr (bank s) .a, aluResult op (reg s (bank s) .a) (valueAt s (effAddr s m)) (cy s))] ++
        [(pswAddr, aluPsw op s.psw (reg s (bank s) .a) (valueAt s (effAddr s m)) (cy s))]) :=
  aluOnReg_completes ((exec_aluMemory hi s).trans (aluFromMem_next op _ (named_of_aluMemory hi) hr)) rfl

/-- CMP makes the read only; the other operations store to the byte, and where it is PSW the flags go on top (92 D1). -/
theorem aluSaddr_runs {o d : Byte} (hr : Readable s .byte (effAddr s (.saddr o)))
    (hw : op = .cmp ∨ Writable s .byte (effAddr s (.saddr o))) :
    let ea := effAddr s (.saddr o)
    let r := aluResult op (valueAt s ea) d (cy s)
    RunsTo (aluSaddr op o d) s (if op = .cmp then noteRead s ea else noteUpdate s ea r)
      (unlessCmp op [(ea, stored ea r)] ++
        [(pswAddr, aluPsw op (if op = .cmp then s.psw else pswAfterStore s ea r) (valueAt s ea) d (cy s))]) := by
  intro ea r
  have hexec := (exec_aluSaddr op o d s).trans (aluOnMem_next op d 3 trivial hr hw)
  refine completes_of_advance (hold := s.hold) hexec (congrArg (BitVec.ofNat 16) (aluSaddr_length op o d).symm) ?_
  by_cases hop : op = .cmp
  · simp only [hop, if_true, unlessCmp, List.nil_append]
    exact withPsw_effect ..
  · simp only [hop, if_false, unlessCmp]
    exact (putByte_effect (noteUpdate s ea r) ea r).trans (withPsw_effect ..)

end Sys2Proof.Machine
end

section
/-! SUPPORT. The 8-bit adder: what the flag computations give is the sum or difference of 9 bits, with the carries
between them (42_operation_8 R199). -/

namespace Sys2Proof.Machine

/-- The carry into bit 4 is the one out of the low digits. -/
theorem carry_four (d s : Byte) (c : Bool) :
    BitVec.carry 4 d s c = decide (15 < d.toNat % 16 + s.toNat % 16 + c.toNat) := by
  rw [BitVec.carry, decide_eq_decide]
  omega

/-- Bit 4 of a sum differs from the sum of the bits by the carry into it. -/
theorem getLsbD_four_add_carry (d s : Byte) (c : Bool) :
    (d ^^^ s ^^^ (d + s + (BitVec.ofBool c).setWidth 8)).getLsbD 4 = BitVec.carry 4 d s c := by
  rw [BitVec.getLsbD_xor, BitVec.getLsbD_xor, BitVec.getLsbD_add_add_bool (by decide)]
  generalize d.getLsbD 4 = x, s.getLsbD 4 = y, BitVec.carry 4 d s c = z
  revert x y z
  decide

/-- Bit 8 of a number of 9 bits says whether it is 256 or more. -/
theorem getLsbD_eight (t : BitVec 9) : t.getLsbD 8 = decide (255 < t.toNat) := by
  rw [← BitVec.msb_eq_getLsbD_last t, BitVec.msb_eq_decide]
  rfl

theorem addFlags_eq_adder (d s : Byte) (c : Bool) :
    let t : BitVec 9 := d.setWidth 9 + s.setWidth 9 + (BitVec.ofBool c).setWidth 9
    let e := addFlags d s c
    e.1 = t.setWidth 8 ∧ e.2.cy = some (t.getLsbD 8) ∧ e.2.ac = some ((d ^^^ s ^^^ e.1).getLsbD 4) := by
  intro t e
  have ht : t.toNat = d.toNat + s.toNat + c.toNat := by
    cases c <;> simp [t] <;> omega
  have hresult : e.1 = d + s + (BitVec.ofBool c).setWidth 8 := aluEval_result .addc d s c
  refine ⟨?_, ?_, ?_⟩
  · rw [← BitVec.ofNat_toNat, ht]
    rfl
  · rw [getLsbD_eight, ht]
    rfl
  · rw [hresult, getLsbD_four_add_carry, carry_four]
    rfl

/-- A difference is the number that makes the minuend when the subtrahend and the borrow are added: what an adder says
of that sum gives AC. -/
theorem subFlags_eq_adder (d s : Byte) (c : Bool) :
    let t : BitVec 9 := d.setWidth 9 - s.setWidth 9 - (BitVec.ofBool c).setWidth 9
    let e := subFlags d s c
    e.1 = t.setWidth 8 ∧ e.2.cy = some (t.getLsbD 8) ∧ e.2.ac = some ((d ^^^ s ^^^ e.1).getLsbD 4) := by
  intro t e
  have ht : (t.toNat : Int) = ((d.toNat : Int) - s.toNat - c.toNat) % 512 := by
    cases c <;> simp [t, BitVec.toNat_sub] <;> omega
  have hresult : e.1 = d - s - (BitVec.ofBool c).setWidth 8 := aluEval_result .subc d s c
  have hsum : e.1 + s + (BitVec.ofBool c).setWidth 8 = d := by rw [hresult]; ring
  have hd := d.isLt
  have hs := s.isLt
  have hc := c.toNat_le
  refine ⟨?_, ?_, ?_⟩
  · apply BitVec.eq_of_toNat_eq
    simp only [e, subFlags, BitVec.toNat_ofInt, BitVec.toNat_setWidth]
    omega
  · rw [getLsbD_eight]
    simp only [e, subFlags, Option.some.injEq, decide_eq_decide]
    omega
  · have hbit := getLsbD_four_add_carry e.1 s c
    rw [hsum, carry_four] at hbit
    rw [show d ^^^ s ^^^ e.1 = e.1 ^^^ s ^^^ d by ac_rfl, hbit]
    have hnat : e.1.toNat = (((d.toNat : Int) - s.toNat - c.toNat) % 256).toNat := BitVec.toNat_ofInt ..
    simp only [e, subFlags, Option.some.injEq, decide_eq_decide] at hnat ⊢
    omega

end Sys2Proof.Machine
end

section
/-! SUPPORT. Decimal adjustment after an addition and a subtraction of decimal bytes (45_rotate_bcd R258, R259). -/

namespace Sys2Proof.Machine

/-! A decimal adjustment, like an operation on A, writes A and the flags. -/

theorem bitOf_writeFlag (p : Byte) (n m : BitVec 3) (b : Option Bool) :
    bitOf (writeFlag p n b) m = if m = n then b.getD (bitOf p n) else bitOf p m := by
  cases b with
  | none => simp only [writeFlag, Option.getD_none]; split <;> simp_all
  | some b => exact bitOf_withBit p n m b

/-- Bit 0 is CY, bit 4 AC and bit 6 Z; the other bits are kept. -/
theorem bitOf_flagsInto (p : Byte) (u : FlagUpdate) (m : BitVec 3) :
    bitOf (flagsInto p u) m =
      if m = cyBit then u.cy.getD (bitOf p m) else if m = acBit then u.ac.getD (bitOf p m)
      else if m = zBit then u.z.getD (bitOf p m) else bitOf p m := by
  simp only [flagsInto, bitOf_writeFlag]
  split_ifs <;> simp_all [cyBit, acBit, zBit]

@[simp] theorem adjustA_psw (e : Byte × FlagUpdate) (len : Addr) (s : State) :
    (adjustA e len s).psw = flagsInto s.psw e.2 := by
  simp only [adjustA, advance_psw, setFlags_psw, setReg_psw]

theorem bank_adjustA (e : Byte × FlagUpdate) (len : Addr) (s : State) : bank (adjustA e len s) = bank s := by
  simp [bank, bitOf_flagsInto, zBit, acBit, cyBit]

theorem cy_adjustA (e : Byte × FlagUpdate) (len : Addr) (s : State) : cy (adjustA e len s) = e.2.cy.getD (cy s) := by
  rw [cy, adjustA_psw, bitOf_flagsInto, if_pos rfl, cy]

theorem ac_adjustA (e : Byte × FlagUpdate) (len : Addr) (s : State) : ac (adjustA e len s) = e.2.ac.getD (ac s) := by
  rw [ac, adjustA_psw, bitOf_flagsInto, if_neg (by decide), if_pos rfl, ac]

theorem reg_adjustA (e : Byte × FlagUpdate) (len : Addr) (s : State) : reg (adjustA e len s) (bank s) .a = e.1 := by
  rw [reg, adjustA, byteAt_advance, byteAt_setFlags, byteAt_setReg]
  simp [eq_comm (a := pswAddr)]

/-- An operation on A and then a decimal adjustment `f` of what it leaves: the adjustment sees the operation's result
and flags, and its own result and CY remain. -/
theorem operation_then_adjustment {i j : Instr} {s : State} {e : Byte × FlagUpdate}
    {f : Byte → Bool → Bool → Byte × FlagUpdate} {len len' : Addr} (hi : exec i s = .next (adjustA e len s))
    (hj : ∀ t, exec j t = .next (adjustA (f (reg t (bank t) .a) (ac t) (cy t)) len' t)) :
    let r := f e.1 (e.2.ac.getD (ac s)) (e.2.cy.getD (cy s))
    ∃ t u, exec i s = .next t ∧ exec j t = .next u ∧ reg u (bank s) .a = r.1 ∧
      bitOf u.psw 0 = r.2.cy.getD (e.2.cy.getD (cy s)) := by
  intro r
  have hadjust := hj (adjustA e len s)
  rw [bank_adjustA, reg_adjustA, ac_adjustA, cy_adjustA] at hadjust
  refine ⟨_, _, hi, hadjust, ?_, ?_⟩
  · rw [← bank_adjustA e len s]
    exact reg_adjustA ..
  · exact (cy_adjustA ..).trans (congrArg _ (cy_adjustA ..))

/-- An operation on A that stores its result. -/
theorem aluOnReg_eq_adjustA {op : AluOp} (hop : op ≠ .cmp) (src : Byte) (len : Addr) (s : State) :
    aluOnReg op .a src len s = .next (adjustA (aluEval op (reg s (bank s) .a) src (cy s)) len s) := by
  have hstores : aluStores op = true := by
    cases op with
    | cmp => exact absurd rfl hop
    | _ => rfl
  simp only [aluOnReg, hstores, if_true, adjustA]

theorem exec_aluImmediate_eq_adjustA {op : AluOp} (hop : op ≠ .cmp) (d : Byte) (s : State) :
    exec (aluImmediate op d) s = .next (adjustA (aluEval op (reg s (bank s) .a) d (cy s))
      (BitVec.ofNat 16 (aluImmediate op d).length) s) :=
  (exec_aluImmediate op d s).trans (aluOnReg_eq_adjustA hop ..)

theorem exec_adjba (s : State) :
    exec .adjba s = .next (adjustA (adjbaFlags (reg s (bank s) .a) (ac s) (cy s)) 2 s) := rfl

theorem exec_adjbs (s : State) :
    exec .adjbs s = .next (adjustA (adjbsFlags (reg s (bank s) .a) (ac s) (cy s)) 2 s) := rfl

/-! The rows that the tables give after an addition and a subtraction of decimal bytes. -/

/-- After an addition ADJBA's row adds 6 to each digit that passed nine, and CY is the carry of the decimal sum. -/
theorem adjbaRow_of_decimal_sum {a d : Byte} (ha : IsBcd a) (hd : IsBcd d) :
    let low := a.toNat % 16 + d.toNat % 16
    let high := a.toNat / 16 + d.toNat / 16 + low / 10
    let t := (a.toNat + d.toNat) % 256
    let row := adjbaRow (t % 16) (t / 16) (15 < low) (255 < a.toNat + d.toNat)
    row.1 = 0x06 * (low / 10) + 0x60 * (high / 10) ∧ row.2.1 = decide (10 ≤ high) := by
  intro low high t row
  obtain ⟨ha1, ha0⟩ := ha
  obtain ⟨hd1, hd0⟩ := hd
  simp only [row, adjbaRow, decide_eq_true_eq, decide_eq_false_iff_not]
  split_ifs <;> simp <;> omega

/-- What ADJBA's row adds makes each digit that passed nine start again at zero, with a carry to the left. -/
theorem corrected_sum_digits (x1 x0 y1 y0 : Nat) :
    let low := x0 + y0
    let high := x1 + y1 + low / 10
    ((16 * x1 + x0 + (16 * y1 + y0)) % 256 + (0x06 * (low / 10) + 0x60 * (high / 10))) % 256 =
      16 * (high % 10) + low % 10 := by
  omega

theorem adjbsRow_eq (ac cy : Bool) : adjbsRow ac cy = (0x06 * ac.toNat + 0x60 * cy.toNat, cy, false) := by
  cases ac <;> cases cy <;> rfl

theorem isBcd_of_digits {v : Byte} {high low : Nat} (hv : v.toNat = 16 * high + low) (hhigh : high ≤ 9)
    (hlow : low ≤ 9) : IsBcd v ∧ bcd v = 10 * high + low := by
  unfold IsBcd bcd
  omega

/-- After ADD of decimal bytes ADJBA leaves the two digits of the decimal sum and its hundreds in CY. -/
theorem adjbaFlags_addFlags {a d : Byte} (ha : IsBcd a) (hd : IsBcd d) (x y z : Bool) :
    let e := addFlags a d false
    let r := adjbaFlags e.1 (e.2.ac.getD x) (e.2.cy.getD y)
    IsBcd r.1 ∧ bcd r.1 + 100 * (r.2.cy.getD z).toNat = bcd a + bcd d := by
  intro e r
  let low := a.toNat % 16 + d.toNat % 16
  let high := a.toNat / 16 + d.toNat / 16 + low / 10
  obtain ⟨hadd, hcarry⟩ := adjbaRow_of_decimal_sum ha hd
  have hdigits := corrected_sum_digits (a.toNat / 16) (a.toNat % 16) (d.toNat / 16) (d.toNat % 16)
  simp only [Nat.div_add_mod, ← hadd] at hdigits
  have hnat : r.1.toNat = 16 * (high % 10) + low % 10 := by
    rw [← hdigits]
    simp [r, e, adjbaFlags, addFlags]
  have hcy : r.2.cy.getD z = decide (10 ≤ high) := hcarry
  obtain ⟨hbcd, hvalue⟩ := isBcd_of_digits hnat (by omega) (by omega)
  obtain ⟨ha1, ha0⟩ := ha
  obtain ⟨hd1, hd0⟩ := hd
  refine ⟨hbcd, ?_⟩
  rw [hvalue, hcy, bcd, bcd, Bool.toNat, Bool.cond_decide]
  split <;> omega

/-- After SUB of decimal bytes ADJBS leaves the two digits of the decimal difference, with the borrow in CY: its row
takes 6 from each digit that borrowed 16 where it had to borrow ten. -/
theorem adjbsFlags_subFlags {a d : Byte} (ha : IsBcd a) (hd : IsBcd d) (x y z : Bool) :
    let e := subFlags a d false
    let r := adjbsFlags e.1 (e.2.ac.getD x) (e.2.cy.getD y)
    IsBcd r.1 ∧ bcd r.1 + bcd d = bcd a + 100 * (r.2.cy.getD z).toNat := by
  intro e r
  have hac : e.2.ac.getD x = decide (a.toNat % 16 < d.toNat % 16) := by
    simp only [e, subFlags, Option.getD_some, decide_eq_decide, Bool.toNat_false]
    omega
  have hcy : e.2.cy.getD y = decide (a.toNat < d.toNat) := by
    simp only [e, subFlags, Option.getD_some, decide_eq_decide, Bool.toNat_false]
    omega
  have hborrow : r.2.cy.getD z = decide (a.toNat < d.toNat) := by
    simp only [r, adjbsFlags, adjbsRow_eq, Option.getD_some, hcy]
  have hnat : (r.1.toNat : Int) = (((a.toNat : Int) - d.toNat) % 256 -
      (0x06 * (if a.toNat % 16 < d.toNat % 16 then 1 else 0) + 0x60 * (if a.toNat < d.toNat then 1 else 0))) % 256 := by
    simp only [r, adjbsFlags, adjbsRow_eq, hac, hcy]
    simp only [e, subFlags, BitVec.toNat_ofInt, Bool.toNat, Bool.cond_decide, cond_false]
    split_ifs <;> omega
  have hd' := d.isLt
  have ha' := a.isLt
  obtain ⟨ha1, ha0⟩ := ha
  obtain ⟨hd1, hd0⟩ := hd
  rw [hborrow, IsBcd, bcd, bcd, bcd, Bool.toNat, Bool.cond_decide]
  split_ifs at hnat ⊢ <;> omega

end Sys2Proof.Machine
end

section
/-! The obligations about 8-bit operations (42_operation_8). -/

namespace Sys2Proof.Machine

/-- Settles O17: an operation on a register, from a register, immediate data or memory, and one on memory. -/
theorem eightBitOperations : Obligations.EightBitOperations := by
  intro s op r m i o d
  exact ⟨aluOnReg_completes (exec_aluImmediate op d s) rfl, aluOnReg_completes (exec_aluAWithReg op r s) rfl,
    aluOnReg_completes (exec_aluRegWithA op r s) rfl, aluMemory_runs, aluSaddr_runs⟩

/-- Settles O18: the additions and subtractions are those of the adder, with or without CY as carry in. -/
theorem flagsAreCarriesOfTheAdder : Obligations.FlagsAreCarriesOfTheAdder := by
  intro op d s c
  cases op with
  | add => exact ⟨rfl, fun _ => addFlags_eq_adder d s false, by simp, by simp⟩
  | addc => exact ⟨rfl, fun _ => addFlags_eq_adder d s c, by simp, by simp⟩
  | sub => exact ⟨rfl, by simp, fun _ => subFlags_eq_adder d s false, by simp⟩
  | subc => exact ⟨rfl, by simp, fun _ => subFlags_eq_adder d s c, by simp⟩
  | cmp => exact ⟨rfl, by simp, fun _ => subFlags_eq_adder d s false, by simp⟩
  | and => exact ⟨rfl, by simp, by simp, fun _ => ⟨rfl, rfl⟩⟩
  | or => exact ⟨rfl, by simp, by simp, fun _ => ⟨rfl, rfl⟩⟩
  | xor => exact ⟨rfl, by simp, by simp, fun _ => ⟨rfl, rfl⟩⟩

/-- Settles O27: ADD and SUB are an adjustment of A by their own result and flags, on which the tables of ADJBA and
ADJBS are right. -/
theorem decimalArithmeticIsRight : Obligations.DecimalArithmeticIsRight := by
  intro s d ha hd
  refine ⟨?_, ?_⟩
  · obtain ⟨t, u, ht, hu, hreg, hcy⟩ := operation_then_adjustment
      (exec_aluImmediate_eq_adjustA (op := .add) (by decide) d s) exec_adjba
    refine ⟨t, u, ht, hu, ?_⟩
    rw [hreg, hcy]
    exact adjbaFlags_addFlags ha hd ..
  · obtain ⟨t, u, ht, hu, hreg, hcy⟩ := operation_then_adjustment
      (exec_aluImmediate_eq_adjustA (op := .sub) (by decide) d s) exec_adjbs
    refine ⟨t, u, ht, hu, ?_⟩
    rw [hreg, hcy]
    exact adjbsFlags_subFlags ha hd ..

end Sys2Proof.Machine
end

section
/-! The obligation about 16-bit operations (43_operation_16). -/

namespace Sys2Proof.Machine

variable {i : Instr} {s t : State} {pc : Addr} {hold : Bool} {ws : List (Addr × Byte)}

/-! The result and flags (43 R223). -/

/-- The sum of the rule is that of 16-bit words by definition, and CY is its carry out of bit 15. -/
theorem addFlagsW_eq (d s : Word) (u : Bool) :
    addFlagsW d s u =
      (d + s, { z := some (d + s == 0), ac := some u, cy := some (65536 ≤ d.toNat + s.toNat) }) := by
  simp only [addFlagsW, BitVec.add_def, Nat.lt_iff_add_one_le]

/-- The difference of the rule is that of 16-bit words, 0 exactly if they are equal, and CY is its borrow. -/
theorem subFlagsW_eq (d s : Word) (u : Bool) :
    subFlagsW d s u = (d - s, { z := some (d == s), ac := some u, cy := some (d.toNat < s.toNat) }) := by
  have hresult : BitVec.ofInt 16 ((d.toNat : Int) - s.toNat) = d - s := by
    apply BitVec.eq_of_toNat_eq
    rw [BitVec.toNat_ofInt, BitVec.toNat_sub]
    omega
  have hzero : (d - s == 0) = (d == s) := by
    rw [Bool.eq_iff_iff, beq_iff_eq, beq_iff_eq]
    exact sub_eq_zero
  have hborrow : ((d.toNat : Int) - s.toNat < 0) ↔ d.toNat < s.toNat := by omega
  simp only [subFlagsW, hresult, hzero, hborrow]

/-! The effect (43 R220 to R222). -/

/-- The counter of undefined AC flags has no address, and an effect does not depend on it. -/
theorem Effect.withFreeCount (h : Effect s t pc hold ws) (n : Nat) :
    Effect { s with freeCount := n } { t with freeCount := n } pc hold ws := by
  obtain ⟨hpc, hhold, ⟨hcfg, hnmis, hnmiPending, hmode, hsfrLog, -⟩, hwritten⟩ := h
  exact ⟨hpc, hhold, ⟨hcfg, hnmis, hnmiPending, hmode, hsfrLog, rfl⟩, hwritten⟩

/-- A 16-bit operation writes AX, if it stores, then the flags, and moves the counter on by one (log 17). -/
theorem aluW_effect (e : Word × FlagUpdate) (stores : Bool) (len : Addr) (s : State) :
    Effect { s with freeCount := s.freeCount + 1 } (aluW e stores len s) (s.pc + len) false
      ((if stores then pairBytes (bank s) .ax e.1 else []) ++ [(pswAddr, flagsInto s.psw e.2)]) := by
  have hdest : Effect s (if stores then setPair s (bank s) .ax e.1 else s) s.pc s.hold
      (if stores then pairBytes (bank s) .ax e.1 else []) := by
    split
    · exact setPair_effect s (bank s) .ax e.1
    · exact Effect.refl s
  have hpsw : (if stores then setPair s (bank s) .ax e.1 else s).psw = s.psw := by
    split
    · exact setPair_psw ..
    · rfl
  have hflags := withPsw_effect (if stores then setPair s (bank s) .ax e.1 else s) (flagsInto s.psw e.2)
  have heffect := ((hdest.trans hflags).advance len false).withFreeCount (s.freeCount + 1)
  rw [aluW, setFlags_eq, hpsw]
  exact heffect

/-- An instruction that runs a 16-bit operation, with the stores `ws` to its destination, ends behind its own bytes. -/
theorem aluW_completes {r : Word} {z u c stores : Bool}
    (hexec : exec i s =
      .next (aluW (r, { z := some z, ac := some u, cy := some c }) stores (BitVec.ofNat 16 i.length) s))
    (hstores : (if stores then pairBytes (bank s) .ax r else []) = ws) :
    Completes i s { s with freeCount := s.freeCount + 1 } (after i s) false
      (ws ++ [(pswAddr, pswFlags s.psw z u c)]) := by
  have heffect := aluW_effect (r, { z := some z, ac := some u, cy := some c }) stores (BitVec.ofNat 16 i.length) s
  rw [flagsInto_some, hstores] at heffect
  exact ⟨_, hexec, heffect⟩

/-! The operation that each instruction runs. -/

theorem exec_addwAxWord (w : Word) (s : State) :
    exec (.addwAxWord w) s =
      .next (aluW (addFlagsW (pair s (bank s) .ax) w (Config.acUndef s.freeCount)) true 3 s) := rfl

theorem exec_subwAxWord (w : Word) (s : State) :
    exec (.subwAxWord w) s =
      .next (aluW (subFlagsW (pair s (bank s) .ax) w (Config.acUndef s.freeCount)) true 3 s) := rfl

theorem exec_cmpwAxWord (w : Word) (s : State) :
    exec (.cmpwAxWord w) s =
      .next (aluW (subFlagsW (pair s (bank s) .ax) w (Config.acUndef s.freeCount)) false 3 s) := rfl

/-- Settles O19: each of the three runs a 16-bit operation, CMPW without storing the difference. -/
theorem wordOperations : Obligations.WordOperations := by
  intro s w x u base
  have hadd := exec_addwAxWord w s
  have hsub := exec_subwAxWord w s
  have hcmp := exec_cmpwAxWord w s
  rw [addFlagsW_eq] at hadd
  rw [subFlagsW_eq] at hsub hcmp
  exact ⟨aluW_completes hadd (if_pos rfl), aluW_completes hsub (if_pos rfl),
    aluW_completes hcmp (if_neg Bool.false_ne_true)⟩

end Sys2Proof.Machine
end

section
/-! The obligations about multiplication, division, increment and decrement (44_muldiv_incdec). -/

namespace Sys2Proof.Machine

variable {i : Instr} {s : State}

/-! Multiplication and division (44 R230, R231). -/

/-- MULU's result is the product of the two bytes as words. -/
theorem ofNat_toNat_mul_toNat (a x : Byte) :
    BitVec.ofNat 16 (a.toNat * x.toNat) = a.setWidth 16 * x.setWidth 16 := by
  rw [BitVec.ofNat_mul, BitVec.ofNat_toNat, BitVec.ofNat_toNat]

/-- DIVUW's quotient is that of words. -/
theorem ofNat_toNat_div_toNat (n : Word) (d : Byte) :
    BitVec.ofNat 16 (n.toNat / d.toNat) = n / d.setWidth 16 := by
  rw [← zext16_toNat d, ← BitVec.toNat_udiv, BitVec.ofNat_toNat, BitVec.setWidth_eq]
  rfl

/-- DIVUW's remainder is that of words, of which the low byte is stored. -/
theorem ofNat_toNat_mod_toNat (n : Word) (d : Byte) :
    BitVec.ofNat 8 (n.toNat % d.toNat) = (n % d.setWidth 16).setWidth 8 := by
  rw [← zext16_toNat d, ← BitVec.toNat_umod, BitVec.ofNat_toNat]
  rfl

theorem divide_zero (n : Word) (s : State) :
    divide n 0 s = setReg (setPair s (bank s) .ax 0xFFFF) (bank s) .c (loByte n) := if_pos rfl

theorem divide_of_ne_zero (n : Word) {d : Byte} (hd : d ≠ 0) (s : State) :
    divide n d s =
      setReg (setPair s (bank s) .ax (n / d.setWidth 16)) (bank s) .c ((n % d.setWidth 16).setWidth 8) := by
  rw [divide, if_neg hd, ofNat_toNat_div_toNat, ofNat_toNat_mod_toNat]

theorem exec_mulu (s : State) :
    exec .mulu s = .next (advance (setPair s (bank s) .ax
      ((reg s (bank s) .a).setWidth 16 * (reg s (bank s) .x).setWidth 16)) 2) := by
  rw [← ofNat_toNat_mul_toNat]
  rfl

theorem exec_divuw (s : State) :
    exec .divuw s = .next (advance (divide (pair s (bank s) .ax) (reg s (bank s) .c) s) 2) := rfl

/-- Settles O20: MULU writes AX; DIVUW writes AX and C, by the two cases of its divisor. -/
theorem multiplyAndDivide : Obligations.MultiplyAndDivide := by
  intro s b x c
  refine ⟨completes_of_advance (exec_mulu s) rfl (setPair_effect ..), fun hc => ?_, fun hc => ?_⟩
  · have hexec := exec_divuw s
    rw [divide_of_ne_zero _ hc] at hexec
    exact completes_of_advance hexec rfl ((setPair_effect ..).trans (setReg_effect ..))
  · have hexec := exec_divuw s
    rw [show reg s (bank s) .c = 0 from hc, divide_zero, loByte_pair] at hexec
    exact completes_of_advance hexec rfl ((setPair_effect ..).trans (setReg_effect ..))

/-! Increment and decrement (44 R235 to R238): first the difference of both, then bytes, then pairs. -/

/-- A decrement of the rules, narrowed from the integers, is that of the word (00_scope R9). -/
theorem ofInt_toNat_sub_one {w : Nat} (x : BitVec w) : BitVec.ofInt w ((x.toNat : Int) - 1) = x - 1 := by
  rw [Int.sub_eq_add_neg, BitVec.ofInt_add, BitVec.ofInt_neg, sub_eq_add_neg, BitVec.ofInt_natCast,
    BitVec.ofNat_toNat, BitVec.setWidth_eq]
  rfl

/-- The sum of the rule is that of bytes, 0 exactly if the byte was FFH. -/
theorem incFlags_eq (d : Byte) :
    incFlags d = (d + 1, { z := some (d == 0xFF), ac := some (d.toNat % 16 == 15) }) := by
  have hresult : BitVec.ofNat 8 (d.toNat + 1) = d + 1 := rfl
  have hzero : (d + 1 == 0) = (d == 0xFF) := by
    rw [Bool.eq_iff_iff, beq_iff_eq, beq_iff_eq]
    exact add_eq_zero_iff_eq_neg
  simp only [incFlags, hresult, hzero]

/-- The difference of the rule is that of bytes, 0 exactly if the byte was 1. -/
theorem decFlags_eq (d : Byte) :
    decFlags d = (d - 1, { z := some (d == 0x01), ac := some (d.toNat % 16 == 0) }) := by
  have hzero : (d - 1 == 0) = (d == 0x01) := by
    rw [Bool.eq_iff_iff, beq_iff_eq, beq_iff_eq]
    exact sub_eq_zero
  simp only [decFlags, ofInt_toNat_sub_one, hzero]

/-- A step of a register writes the register and then the flags, CY kept. -/
theorem stepReg_runs {f : Byte → Byte × FlagUpdate} {r : Reg8} {v : Byte} {z ac : Bool}
    (hexec : exec i s = .next (stepReg f r (BitVec.ofNat 16 i.length) s))
    (hf : f (reg s (bank s) r) = (v, { z := some z, ac := some ac })) :
    Runs i s [(regAddr (bank s) r, v), (pswAddr, pswFlags s.psw z ac (bitOf s.psw 0))] := by
  simp only [stepReg, hf, setFlags_eq, setReg_psw, flagsInto_eq] at hexec
  exact completes_of_advance hexec rfl ((setReg_effect s (bank s) r v).trans (withPsw_effect ..))

/-- A step of a byte of memory stores the byte and then the flags, on top of the result where the byte is PSW (92 D1). -/
theorem stepMem_runs {f : Byte → Byte × FlagUpdate} {m : MemOperand} {v : Byte} {z ac : Bool}
    (hexec : exec i s = stepMem f m (BitVec.ofNat 16 i.length) s)
    (hf : f (valueAt s (effAddr s m)) = (v, { z := some z, ac := some ac })) (hm : Named m)
    (hr : Readable s .byte (effAddr s m)) (hw : Writable s .byte (effAddr s m)) :
    let p := pswAfterStore s (effAddr s m) v
    RunsTo i s (noteUpdate s (effAddr s m) v)
      [(effAddr s m, stored (effAddr s m) v), (pswAddr, pswFlags p z ac (bitOf p 0))] := by
  have hnext := hexec.trans (stepMem_next f _ hm hr hw)
  simp only [hf, setFlags_eq, putByte_psw_eq, flagsInto_eq] at hnext
  exact completes_of_advance hnext rfl
    ((putByte_effect (noteUpdate s (effAddr s m) v) (effAddr s m) v).trans (withPsw_effect ..))

/-- Settles O21, from the result and flags of both steps and the effect on a register and on a byte of memory. -/
theorem incrementAndDecrementBytes : Obligations.IncrementAndDecrementBytes := by
  intro s r o v ea d p q
  exact ⟨stepReg_runs rfl (incFlags_eq v), stepReg_runs rfl (decFlags_eq v), fun hr hw =>
    ⟨stepMem_runs (m := .saddr o) rfl (incFlags_eq d) trivial hr hw,
      stepMem_runs (m := .saddr o) rfl (decFlags_eq d) trivial hr hw⟩⟩

theorem exec_incwRp (p : RegPair) (s : State) :
    exec (.incwRp p) s = .next (advance (setPair s (bank s) p (pair s (bank s) p + 1)) 1) := rfl

theorem exec_decwRp (p : RegPair) (s : State) :
    exec (.decwRp p) s = .next (advance (setPair s (bank s) p (pair s (bank s) p - 1)) 1) := by
  rw [← ofInt_toNat_sub_one]
  rfl

/-- Settles O22: each writes the pair and leaves PSW alone. -/
theorem incrementAndDecrementWords : Obligations.IncrementAndDecrementWords := by
  intro s p
  exact ⟨completes_of_advance (exec_incwRp p s) rfl (setPair_effect ..),
    completes_of_advance (exec_decwRp p s) rfl (setPair_effect ..)⟩

end Sys2Proof.Machine
end

section
/-! The obligations about rotates and decimal adjustment (45_rotate_bcd). -/

namespace Sys2Proof.Machine

variable {i : Instr} {s : State}

/-- An instruction that writes A and then the flags, as the rotates of A and both decimal adjustments do. -/
theorem adjustA_runs {e : Byte × FlagUpdate} (hexec : exec i s = .next (adjustA e (BitVec.ofNat 16 i.length) s)) :
    Runs i s [(regAddr (bank s) .a, e.1), (pswAddr, flagsInto s.psw e.2)] := by
  rw [adjustA, setFlags_eq, setReg_psw] at hexec
  exact completes_of_advance hexec rfl ((setReg_effect s (bank s) .a e.1).trans (withPsw_effect ..))

/-! Rotates of A (45 R250 to R253): each puts one bit above or below seven bits of A. -/

theorem bit_above_eq_or (c : Bool) (a : Byte) :
    BitVec.ofBool c ++ a.extractLsb' 1 7 = (a >>> 1) ||| ((BitVec.ofBool c).setWidth 8 <<< 7) := by
  revert c a
  decide

theorem bit_below_eq_or (c : Bool) (a : Byte) :
    a.extractLsb' 0 7 ++ BitVec.ofBool c = (a <<< 1) ||| (BitVec.ofBool c).setWidth 8 := by
  revert c a
  decide

theorem bit_zero_above_eq_rotateRight (a : Byte) :
    BitVec.ofBool (a.getLsbD 0) ++ a.extractLsb' 1 7 = a.rotateRight 1 := by
  revert a
  decide

theorem bit_seven_below_eq_rotateLeft (a : Byte) :
    a.extractLsb' 0 7 ++ BitVec.ofBool (a.getLsbD 7) = a.rotateLeft 1 := by
  revert a
  decide

/-- A rotate of A writes its result and the bit shifted out to CY, and keeps Z and AC. -/
theorem rotateA_runs {f : Byte → Bool → Byte} {out : BitVec 3} {v : Byte}
    (hexec : exec i s = .next (rotateA f out (BitVec.ofNat 16 i.length) s)) (hf : f (reg s (bank s) .a) (cy s) = v) :
    Runs i s [(regAddr (bank s) .a, v),
      (pswAddr, pswFlags s.psw (bitOf s.psw 6) (bitOf s.psw 4) (bitOf (reg s (bank s) .a) out))] := by
  have hruns := adjustA_runs (e := (f (reg s (bank s) .a) (cy s), { cy := some (bitOf (reg s (bank s) .a) out) })) hexec
  rw [flagsInto_eq, hf] at hruns
  exact hruns

theorem exec_ror (s : State) :
    exec .ror s = .next (rotateA (fun a _ => BitVec.ofBool (a.getLsbD 0) ++ a.extractLsb' 1 7) 0 1 s) := rfl

theorem exec_rol (s : State) :
    exec .rol s = .next (rotateA (fun a _ => a.extractLsb' 0 7 ++ BitVec.ofBool (a.getLsbD 7)) 7 1 s) := rfl

theorem exec_rorc (s : State) :
    exec .rorc s = .next (rotateA (fun a c => BitVec.ofBool c ++ a.extractLsb' 1 7) 0 1 s) := rfl

theorem exec_rolc (s : State) :
    exec .rolc s = .next (rotateA (fun a c => a.extractLsb' 0 7 ++ BitVec.ofBool c) 7 1 s) := rfl

/-- Settles O23: the four rotates differ in the bit that enters and the side where it does. -/
theorem rotates : Obligations.Rotates := by
  intro s a c psw
  have hror := rotateA_runs (exec_ror s) (bit_zero_above_eq_rotateRight a)
  have hrol := rotateA_runs (exec_rol s) (bit_seven_below_eq_rotateLeft a)
  have hrorc := rotateA_runs (exec_rorc s) (bit_above_eq_or (cy s) a)
  have hrolc := rotateA_runs (exec_rolc s) (bit_below_eq_or (cy s) a)
  exact ⟨hror, hrol, hrorc, hrolc⟩

/-! Rotates of digits (45 R254, R255). -/

theorem digits_eq_or (x y : BitVec 4) : x ++ y = (x.setWidth 8 <<< 4) ||| y.setWidth 8 := by
  revert x y
  decide

theorem lowDigit_setWidth : ∀ v : Byte, (lowDigit v).setWidth 8 = v &&& 0x0F := by decide

theorem highDigit_setWidth : ∀ v : Byte, (highDigit v).setWidth 8 = v >>> 4 := by decide

theorem lowDigit_shiftLeft : ∀ v : Byte, (lowDigit v).setWidth 8 <<< 4 = v <<< 4 := by decide

theorem highDigit_shiftLeft : ∀ v : Byte, (highDigit v).setWidth 8 <<< 4 = v &&& 0xF0 := by decide

/-- The digits that ROR4 leaves at HL and in A (45 R254). -/
theorem ror4_digits (a m : Byte) :
    (lowDigit a ++ highDigit m, highDigit a ++ lowDigit m) =
      (((a &&& 0x0F) <<< 4) ||| (m >>> 4), (a &&& 0xF0) ||| (m &&& 0x0F)) := by
  rw [digits_eq_or, digits_eq_or, lowDigit_setWidth, highDigit_setWidth, highDigit_shiftLeft, lowDigit_setWidth]

/-- The digits that ROL4 leaves at HL and in A (45 R255). -/
theorem rol4_digits (a m : Byte) :
    (lowDigit m ++ lowDigit a, highDigit a ++ highDigit m) =
      ((m <<< 4) ||| (a &&& 0x0F), (a &&& (0xF0 : Byte)) ||| (m >>> 4)) := by
  rw [digits_eq_or, digits_eq_or, lowDigit_shiftLeft, lowDigit_setWidth, highDigit_shiftLeft, highDigit_setWidth]

/-- HL in the SFR area stops the instruction before any access (92 D8). -/
theorem rotateDigits_sfr_fault (f : Byte → Byte → Byte × Byte) (len : Addr)
    (h : inSfrArea (effAddr s .hl) = true) :
    rotateDigits f len s = .fault (.rotateSfr s.pc (effAddr s .hl)) := by
  simp only [rotateDigits, h, if_true]
  rfl

/-- Outside the SFR area the byte at HL is written, and then A (92 D15). -/
theorem rotateDigits_runs {f : Byte → Byte → Byte × Byte} {v w : Byte}
    (hexec : exec i s = rotateDigits f (BitVec.ofNat 16 i.length) s) (ha : (effAddr s .hl).toNat < 0xFF00)
    (hr : Readable s .byte (effAddr s .hl)) (hw : Writable s .byte (effAddr s .hl))
    (hf : f (reg s (bank s) .a) (byteAt s (effAddr s .hl)) = (v, w)) :
    Runs i s [(effAddr s .hl, v), (regAddr (bank s) .a, w)] := by
  have hnext := hexec.trans (rotateDigits_next f _ (inSfrArea_eq_false_iff.2 ha) hr hw)
  have heffect := (putByte_effect s (effAddr s .hl) v).trans (setReg_effect _ (bank s) .a w)
  rw [stored_of_le (by omega)] at heffect
  rw [hf] at hnext
  exact completes_of_advance hnext rfl heffect

theorem exec_ror4 (s : State) :
    exec .ror4 s = rotateDigits (fun a m => (lowDigit a ++ highDigit m, highDigit a ++ lowDigit m)) 2 s := rfl

theorem exec_rol4 (s : State) :
    exec .rol4 s = rotateDigits (fun a m => (lowDigit m ++ lowDigit a, highDigit a ++ highDigit m)) 2 s := rfl

/-- Settles O24: three digits in a ring below FF00H, the fault from there on. -/
theorem digitRotates : Obligations.DigitRotates := by
  intro s ea a m
  refine ⟨fun hea hr hw => ⟨rotateDigits_runs (exec_ror4 s) hea hr hw (ror4_digits a m),
    rotateDigits_runs (exec_rol4 s) hea hr hw (rol4_digits a m)⟩, fun hea => ?_⟩
  have hfault := fun f => rotateDigits_sfr_fault f 2 (inSfrArea_iff.2 hea)
  exact ⟨(exec_ror4 s).trans (hfault _), (exec_rol4 s).trans (hfault _)⟩

/-! Decimal adjustment (45 R258, R259). -/

/-- The rows of the table with AC = 1 (45 R258). -/
theorem adjbaRow_ac (lo hi : Nat) (cy : Bool) :
    adjbaRow lo hi true cy = if hi ≤ 9 ∧ cy = false then (0x06, false, false) else (0x66, true, false) := rfl

/-- The rows of the table with AC = 0 and a decimal low digit (45 R258). -/
theorem adjbaRow_decimal_low {lo : Nat} (hlo : lo ≤ 9) (hi : Nat) (cy : Bool) :
    adjbaRow lo hi false cy = if hi ≤ 9 ∧ cy = false then (0x00, false, false) else (0x60, true, false) :=
  if_pos hlo

/-- The rows of the table with AC = 0 and another low digit (45 R258). -/
theorem adjbaRow_other_low {lo : Nat} (hlo : 10 ≤ lo) (hi : Nat) (cy : Bool) :
    adjbaRow lo hi false cy = if hi < 9 ∧ cy = false then (0x06, false, true) else (0x66, true, true) :=
  if_neg (show ¬lo ≤ 9 by omega)

/-- The two conditions on the high digit and CY exclude each other. -/
theorem not_high_below {n hi : Nat} {cy : Bool} (h : n ≤ hi ∨ cy = true) : ¬(hi < n ∧ cy = false) := by
  rintro ⟨hlt, rfl⟩
  obtain hle | hcy := h
  · omega
  · exact Bool.false_ne_true hcy

theorem not_decimal_high {hi : Nat} {cy : Bool} (h : 10 ≤ hi ∨ cy = true) : ¬(hi ≤ 9 ∧ cy = false) :=
  mt (And.imp_left Nat.lt_succ_of_le) (not_high_below h)

/-- ADJBA adds the number of its row to A and writes the row's flags. -/
theorem adjba_runs {n : Nat} {h newCy newAc : Bool} (hac : bitOf s.psw 4 = h)
    (hrow : adjbaRow ((reg s (bank s) .a).toNat % 16) ((reg s (bank s) .a).toNat / 16) h (cy s) = (n, newCy, newAc)) :
    let result := reg s (bank s) .a + BitVec.ofNat 8 n
    Runs .adjba s [(regAddr (bank s) .a, result), (pswAddr, pswFlags s.psw (result == 0) newAc newCy)] := by
  have hruns := adjustA_runs (exec_adjba s)
  rw [show ac s = h from hac] at hruns
  simp only [adjbaFlags, hrow, flagsInto_some, BitVec.ofNat_add, BitVec.ofNat_toNat, BitVec.setWidth_eq] at hruns
  exact hruns

/-- Settles O25, row by row: AC and the low digit select a pair of rows, the high digit and CY the row. -/
theorem adjustAfterAddition : Obligations.AdjustAfterAddition := by
  intro s a lo hi c h row
  refine ⟨?_, ?_, ?_, ?_, ?_, ?_⟩
  · rintro ⟨hlo, hac, hhigh⟩
    exact adjba_runs hac ((adjbaRow_decimal_low hlo hi c).trans (if_pos hhigh))
  · rintro ⟨hlo, hac, hhigh⟩
    exact adjba_runs hac ((adjbaRow_decimal_low hlo hi c).trans (if_neg (not_decimal_high hhigh)))
  · rintro ⟨hlo, hac, hhigh⟩
    exact adjba_runs hac ((adjbaRow_other_low hlo hi c).trans (if_pos hhigh))
  · rintro ⟨hlo, hac, hhigh⟩
    exact adjba_runs hac ((adjbaRow_other_low hlo hi c).trans (if_neg (not_high_below hhigh)))
  · rintro ⟨hac, hhigh⟩
    exact adjba_runs hac ((adjbaRow_ac lo hi c).trans (if_pos hhigh))
  · rintro ⟨hac, hhigh⟩
    exact adjba_runs hac ((adjbaRow_ac lo hi c).trans (if_neg (not_decimal_high hhigh)))

/-- A subtraction of the rules, narrowed from the integers, is that of the word (00_scope R9). -/
theorem ofInt_toNat_sub {w : Nat} (x : BitVec w) (n : Nat) :
    BitVec.ofInt w ((x.toNat : Int) - n) = x - BitVec.ofNat w n := by
  rw [Int.sub_eq_add_neg, BitVec.ofInt_add, BitVec.ofInt_neg, sub_eq_add_neg, BitVec.ofInt_natCast,
    BitVec.ofInt_natCast, BitVec.ofNat_toNat, BitVec.setWidth_eq]

/-- ADJBS takes 06H for AC and 60H for CY, which it keeps. -/
theorem adjbsFlags_eq (a : Byte) (ac cy : Bool) :
    let result := a - (if ac then 0x06 else 0x00) - (if cy then 0x60 else 0x00)
    adjbsFlags a ac cy = (result, { z := some (result == 0), ac := some false, cy := some cy }) := by
  intro result
  have hresult : BitVec.ofInt 8 ((a.toNat : Int) - (0x06 * ac.toNat + 0x60 * cy.toNat : Nat)) = result := by
    rw [ofInt_toNat_sub, BitVec.ofNat_add, ← sub_sub]
    cases ac <;> cases cy <;> rfl
  simp only [adjbsFlags, adjbsRow_eq, hresult]

/-- Settles O26, from the result and flags of ADJBS. -/
theorem adjustAfterSubtraction : Obligations.AdjustAfterSubtraction := by
  intro s a c result
  have hruns := adjustA_runs (exec_adjbs s)
  rw [adjbsFlags_eq, flagsInto_some] at hruns
  exact hruns

end Sys2Proof.Machine
end

section
/-! The obligations about bits (46_bit). -/

namespace Sys2Proof.Machine

variable {i : Instr} {s : State} {n : BitVec 3} {v hold : Bool} {x : BitPlace}

/-! CY as the destination (46 R271, R274 to R276, R280 to R282). -/

/-- The end of the instructions that write CY alone; `base` is `s`, with the calls a device SFR has seen. -/
theorem writeCy_runs {base : State} {b : Bool}
    (hexec : exec i s = .next (advance (setFlags base { cy := some b }) (BitVec.ofNat 16 i.length)))
    (hpc : base.pc = s.pc) : RunsTo i s base [(pswAddr, flagsInto base.psw { cy := some b })] := by
  have heffect := withPsw_effect base (flagsInto base.psw { cy := some b })
  rw [hpc] at heffect
  exact completes_of_advance hexec rfl heffect

/-- Settles O28: the bit is read, and Z and AC keep their value when CY is written. -/
theorem bitsIntoCarry : Obligations.BitsIntoCarry := by
  intro s op n x hx hr
  have hruns := writeCy_runs ((exec_bitIntoCy op n x s).trans (bitToCy_next _ n _ hx hr)) rfl
  rw [flagsInto_eq] at hruns
  exact hruns

theorem flagsInto_cy (p : Byte) (b : Bool) : flagsInto p { cy := some b } = replaceBit p cyBit b :=
  withBit_eq_replaceBit p cyBit b

/-- Writing the opposite of the lowest bit is exclusive OR with 1. -/
theorem replaceBit_cy_not : ∀ p : Byte, replaceBit p cyBit (!bitOf p cyBit) = p ^^^ 0x01 := by decide

/-- A CY operation without operand, from the value it gives CY and the PSW that this makes. -/
theorem writeCy_runs_of_psw {b : Bool} {p : Byte}
    (hexec : exec i s = .next (advance (setFlags s { cy := some b }) (BitVec.ofNat 16 i.length)))
    (hp : replaceBit s.psw cyBit b = p) : Runs i s [(pswAddr, p)] := by
  rw [← hp, ← flagsInto_cy]
  exact writeCy_runs hexec rfl

/-- Settles O30: CY is written with 1, with 0 and with its opposite. -/
theorem carryOperations : Obligations.CarryOperations := by
  intro s
  exact ⟨writeCy_runs_of_psw (b := true) rfl rfl, writeCy_runs_of_psw (b := false) rfl rfl,
    writeCy_runs_of_psw (b := !cy s) rfl (replaceBit_cy_not s.psw)⟩

/-! A bit as the destination (46 R272, R278, R279). -/

theorem saddrBit_beq_saddrBit (o o' : Byte) : (BitPlace.saddr o == .saddr o') = (o == o') := by
  rw [Bool.eq_iff_iff, beq_iff_eq, beq_iff_eq, BitPlace.saddr.injEq]

/-- Of SET1 and CLR1, those whose bytes are EI's and DI's hold interrupts (60_exceptions R415; 92 D17). -/
theorem exec_constantIntoBit_hold (v : Bool) (n : BitVec 3) (x : BitPlace) (s : State) :
    exec (constantIntoBit v n x) s = bitFromValue x.operand n v (BitVec.ofNat 16 (constantIntoBit v n x).length)
      ((x == .psw || x == .saddr pswOffset) && n == 7) s := by
  cases x with
  | saddr o => rw [saddrBit_beq_saddrBit]; cases v <;> rfl
  | _ => cases v <;> rfl

/-- A write of one bit stores its byte, the other seven bits as read (93 G3). -/
theorem bitFromValue_completes
    (hexec : exec i s = bitFromValue x.operand n v (BitVec.ofNat 16 i.length) hold s) (hx : x.Named)
    (hr : Readable s .bit (x.addr s)) (hw : Writable s .bit (x.addr s)) :
    let byte := replaceBit (valueAt s (x.addr s)) n v
    Completes i s (noteUpdate s (x.addr s) byte) (after i s) hold [(x.addr s, stored (x.addr s) byte)] := by
  rw [← withBit_eq_replaceBit]
  exact completes_of_advance (hexec.trans (bitFromValue_next n v _ hold hx hr hw)) rfl (putByte_effect ..)

/-- Settles O29: MOV1 writes CY and never holds; SET1 and CLR1 write a constant. -/
theorem bitsWritten : Obligations.BitsWritten := by
  intro s n v x hx hr hw
  exact ⟨bitFromValue_completes (exec_cyIntoBit n x s) hx hr hw,
    bitFromValue_completes (exec_constantIntoBit_hold v n x s) hx hr hw⟩

end Sys2Proof.Machine
end

section
/-! SUPPORT. The stack (47_call R300 to R302): the effect of pushes, what stands at an address after them, what pops
answer, and what entering and leaving a handler does to the stack (60_exceptions R404, R416). Of an operation's stores, a
new SP may be listed last, whatever the order in which SP and the stack change. -/

namespace Sys2Proof.Machine

variable {i : Instr} {s base t : State} {a pc : Addr} {v : Byte} {w w' : Word} {hold : Bool}
  {us ws : List (Addr × Byte)}

/-! Instructions that set PC. -/

/-- The end of an instruction that sets PC changes PC and `hold`, and nothing else (10_state R28, R42). -/
theorem Effect.endsAt (h : Effect base t pc hold ws) (target : Addr) (hold' : Bool) :
    Effect base { t with pc := target, hold := hold' } target hold' ws := by
  obtain ⟨-, -, hhidden, hwritten⟩ := h
  exact ⟨rfl, rfl, hhidden, hwritten⟩

theorem Effect.jump (h : Effect base t pc hold ws) (target : Addr) :
    Effect base (jump t target) target false ws := h.endsAt target false

/-- NMIS has no address, and no part in the stores. -/
theorem Effect.withNmis (h : Effect s t pc hold ws) (b : Bool) :
    Effect { s with nmis := b } { t with nmis := b } pc hold ws := by
  obtain ⟨hpc, hhold, ⟨hcfg, -, hhidden⟩, hwritten⟩ := h
  exact ⟨hpc, hhold, ⟨hcfg, rfl, hhidden⟩, hwritten⟩

/-! SP's two bytes among the stores. -/

/-- Writing SP changes its two bytes and nothing else (10_state R37, R38). -/
theorem withSp_effect (s : State) (w : Word) : Effect s (withSp s w) s.pc s.hold (spBytes w) :=
  ⟨rfl, rfl, ⟨rfl, rfl, rfl, rfl, rfl, rfl⟩, byteAt_withSp s w⟩

theorem overlay_spBytes (w : Word) (f : Addr → Byte) (a : Addr) :
    overlay (spBytes w) f a = if spHighAddr = a then hiByte w else if spLowAddr = a then loByte w else f a := rfl

theorem overlay_congr {f g : Addr → Byte} (ws : List (Addr × Byte)) (h : f a = g a) :
    overlay ws f a = overlay ws g a := by rw [overlay, h, overlay]

/-- A last write of SP hides the writes of SP before it. -/
theorem overlay_spBytes_hidden (us ws : List (Addr × Byte)) (w w' : Word) (f : Addr → Byte) (a : Addr) :
    overlay (us ++ spBytes w ++ ws ++ spBytes w') f a = overlay (us ++ ws ++ spBytes w') f a := by
  simp only [overlay_append, overlay_spBytes]
  split_ifs with hhigh hlow
  · rfl
  · rfl
  · exact overlay_congr ws (by rw [overlay_append, overlay_spBytes, if_neg hhigh, if_neg hlow])

theorem Effect.hideSp (h : Effect s t pc hold (us ++ spBytes w ++ ws ++ spBytes w')) :
    Effect s t pc hold (us ++ ws ++ spBytes w') := by
  obtain ⟨hpc, hhold, hhidden, hwritten⟩ := h
  exact ⟨hpc, hhold, hhidden, fun a => (hwritten a).trans (overlay_spBytes_hidden us ws w w' _ a)⟩

/-- The write of SP can be listed last, where it stands for the SP there is. -/
theorem Effect.spLast (h : Effect s t pc hold (us ++ spBytes w ++ ws)) (hsp : t.sp = w') :
    Effect s t pc hold (us ++ ws ++ spBytes w') := by
  subst hsp
  exact (h.trans (withSp_effect t t.sp)).hideSp

/-! What stands at an address after the stores. -/

theorem overlay_of_not_stored (f : Addr → Byte) (h : ∀ x ∈ ws, x.1 ≠ a) : overlay ws f a = f a := by
  induction ws generalizing f with
  | nil => rfl
  | cons x ws ih =>
    obtain ⟨hx, hws⟩ := List.forall_mem_cons.1 h
    calc overlay (x :: ws) f a
      _ = overlay ws (overlay [x] f) a := overlay_append [x] ws f a
      _ = overlay [x] f a := ih _ hws
      _ = f a := if_neg hx

theorem Written.byteAt_of_not_stored (h : Written s t ws) (ha : ∀ x ∈ ws, x.1 ≠ a) : byteAt t a = byteAt s a :=
  (h a).trans (overlay_of_not_stored _ ha)

/-- The last store to an address is what stands there. -/
theorem Written.byteAt_of_last (us : List (Addr × Byte)) (h : Written s t (us ++ (a, v) :: ws))
    (ha : ∀ x ∈ ws, x.1 ≠ a) : byteAt t a = v := by
  rw [h a, overlay_append, ← List.singleton_append, overlay_append, overlay_of_not_stored _ ha]
  exact if_pos rfl

theorem spBytes_ne (w : Word) (ha : a.toNat ≤ 0xFEFF) : ∀ x ∈ spBytes w, x.1 ≠ a := by
  obtain ⟨-, hlow, hhigh⟩ := ne_control_of_le ha
  simp [spBytes, hlow.symm, hhigh.symm]

theorem byteAt_withSp_of_le (ha : a.toNat ≤ 0xFEFF) : byteAt (withSp s w) a = byteAt s a := by
  obtain ⟨-, -, -, hwritten⟩ := withSp_effect s w
  exact hwritten.byteAt_of_not_stored (spBytes_ne w ha)

theorem Written.sp_of_last (us : List (Addr × Byte)) (h : Written s t (us ++ spBytes w)) : t.sp = w := by
  rw [← sp_bytes t, h, h, overlay_append, overlay_append]
  exact mkWord_bytes w

/-- The address of a byte on the stack is none that SP and PSW are stored at. -/
theorem control_ne (v : Byte) (w : Word) (ha : a.toNat ≤ 0xFEFF) : ∀ x ∈ (pswAddr, v) :: spBytes w, x.1 ≠ a :=
  List.forall_mem_cons.2 ⟨(ne_control_of_le ha).1.symm, spBytes_ne w ha⟩

/-- A word stored high byte first, and not stored over, is the word that stands there. -/
theorem Written.wordAt_of_last {w : Word} (us : List (Addr × Byte))
    (h : Written s t (us ++ (a + 1, hiByte w) :: (a, loByte w) :: ws)) (ha : ∀ x ∈ ws, x.1 ≠ a)
    (ha' : ∀ x ∈ ws, x.1 ≠ a + 1) : wordAt t a = w := by
  have hne : a ≠ a + 1 := by bv_omega
  have hhigh : byteAt t (a + 1) = hiByte w := h.byteAt_of_last us (List.forall_mem_cons.2 ⟨hne, ha'⟩)
  have hlow : byteAt t a = loByte w := by
    rw [List.append_cons] at h
    exact h.byteAt_of_last (us ++ [(a + 1, hiByte w)]) ha
  rw [wordAt, hhigh, hlow]
  exact mkWord_bytes w

/-! Pushes. -/

/-- The stores of pushing the given bytes from `sp` on, the first at the highest address (47 R302). -/
def frameBytes (sp : Addr) : List Byte → List (Addr × Byte)
  | [] => []
  | v :: vs => (sp - 1, v) :: frameBytes (sp - 1) vs

theorem frameBytes_two (sp : Addr) (v₁ v₂ : Byte) : frameBytes sp [v₁, v₂] = [(sp - 1, v₁), (sp - 2, v₂)] := by
  simp only [frameBytes, sub_sub_one]

theorem frameBytes_three (sp : Addr) (v₁ v₂ v₃ : Byte) :
    frameBytes sp [v₁, v₂, v₃] = [(sp - 1, v₁), (sp - 2, v₂), (sp - 3, v₃)] := by
  simp only [frameBytes, sub_sub_one, sub_two_sub_one]

/-- One push in the internal high-speed RAM stores its byte and lowers SP. -/
theorem push_effect (v : Byte) (h : inIhram s.cfg (s.sp - 1) = true) :
    Effect s (pushed s [v]) s.pc s.hold (spBytes (s.sp - 1) ++ [(s.sp - 1, v)]) := by
  have hput := putByte_effect (withSp s (s.sp - 1)) (s.sp - 1) v
  rw [stored_of_le (le_of_inIhram h)] at hput
  exact (withSp_effect s (s.sp - 1)).trans hput

theorem sp_pushed (vs : List Byte) (h : StackRoom s vs.length) :
    (pushed s vs).sp = s.sp - BitVec.ofNat 16 vs.length := by
  induction vs generalizing s with
  | nil => exact (sub_zero s.sp).symm
  | cons v vs ih =>
    have hsp : (pushed s [v]).sp = s.sp - 1 := pushed_sp (h 0 (Nat.succ_pos _))
    calc (pushed (pushed s [v]) vs).sp
      _ = s.sp - 1 - BitVec.ofNat 16 vs.length := by rw [ih (stackRoom_pushed h), hsp]
      _ = s.sp - BitVec.ofNat 16 (vs.length + 1) := by rw [sub_sub, add_comm, BitVec.ofNat_add]; rfl

/-- Pushes store their bytes and set SP, and nothing else (47 R302). -/
theorem pushed_effect (vs : List Byte) (h : StackRoom s vs.length) :
    Effect s (pushed s vs) s.pc s.hold (frameBytes s.sp vs ++ spBytes (s.sp - BitVec.ofNat 16 vs.length)) := by
  rw [← sp_pushed vs h]
  induction vs generalizing s with
  | nil => exact withSp_effect s s.sp
  | cons v vs ih =>
    have h0 : inIhram s.cfg (s.sp - 1) = true := h 0 (Nat.succ_pos _)
    have hsp : (pushed s [v]).sp = s.sp - 1 := pushed_sp h0
    have hrest := ih (s := pushed s [v]) (stackRoom_pushed h)
    rw [hsp] at hrest
    have hall := (push_effect v h0).trans hrest
    rw [← List.append_assoc, List.append_assoc (spBytes _)] at hall
    exact hall.hideSp (us := [])

theorem psw_pushed (vs : List Byte) (h : StackRoom s vs.length) : (pushed s vs).psw = s.psw := by
  induction vs generalizing s with
  | nil => rfl
  | cons v vs ih => exact (ih (stackRoom_pushed h)).trans (putByte_psw_of_le (le_of_inIhram (h 0 (Nat.succ_pos _))))

theorem pushWord_effect (w : Word) (h : StackRoom s 2) :
    Effect s (pushed s [hiByte w, loByte w]) s.pc s.hold
      ([(s.sp - 1, hiByte w), (s.sp - 2, loByte w)] ++ spBytes (s.sp - 2)) := by
  rw [← frameBytes_two]
  exact pushed_effect [hiByte w, loByte w] h

theorem wordAt_pushed (w : Word) (h : StackRoom s 2) : wordAt (pushed s [hiByte w, loByte w]) (s.sp - 2) = w := by
  obtain ⟨-, -, -, hwritten⟩ := pushWord_effect w h
  have h1 : (s.sp - 1).toNat ≤ 0xFEFF := le_of_inIhram (h 0 (by decide))
  have h2 : (s.sp - 2).toNat ≤ 0xFEFF := le_of_inIhram (h 1 (by decide))
  rw [show s.sp - 1 = s.sp - 2 + 1 by bv_omega] at hwritten h1
  exact hwritten.wordAt_of_last [] (spBytes_ne _ h2) (spBytes_ne _ h1)

/-! Reading a pair, and a word outside the SFR area. -/

@[simp] theorem wordAt_jump (s : State) (target a : Addr) : wordAt (jump s target) a = wordAt s a := rfl

@[simp] theorem wordAt_advance (s : State) (len : Addr) (hold : Bool) (a : Addr) :
    wordAt (advance s len hold) a = wordAt s a := rfl

theorem pair_setPair (s : State) (b : BitVec 2) (p : RegPair) (w : Word) : pair (setPair s b p w) b p = w := by
  have hne : regAddr b p.highReg ≠ regAddr b p.lowReg := by cases p <;> simp [RegPair.highReg, RegPair.lowReg]
  have hhigh : reg (setPair s b p w) b p.highReg = hiByte w := by rw [reg, byteAt_setPair, if_pos rfl]
  have hlow : reg (setPair s b p w) b p.lowReg = loByte w := by rw [reg, byteAt_setPair, if_neg hne, if_pos rfl]
  rw [pair, hhigh, hlow, mkWord_bytes]

@[simp] theorem bank_setPair (s : State) (b : BitVec 2) (p : RegPair) (w : Word) :
    bank (setPair s b p w) = bank s := by rw [bank, setPair_psw, bank]

@[simp] theorem bank_withSp (s : State) (w : Word) : bank (withSp s w) = bank s := rfl

@[simp] theorem bank_advance (s : State) (len : Addr) (hold : Bool) : bank (advance s len hold) = bank s := rfl

@[simp] theorem pair_advance (s : State) (len : Addr) (hold : Bool) (b : BitVec 2) (p : RegPair) :
    pair (advance s len hold) b p = pair s b p := rfl

/-- Nothing that decides what can be read is changed by a store. -/
theorem Effect.readable {u : AccessUnit} (h : Effect s t s.pc hold ws) (hr : Readable s u a) : Readable t u a := by
  obtain ⟨hpc, -, ⟨hcfg, -⟩, -⟩ := h
  exact (checkRead_congr hcfg hpc u a).trans hr

/-- A word below the SFR area is read as it stands there, and no device SFR sees it. -/
theorem plainWord_of_lt (s : State) (ha : a.toNat < 0xFEFF) :
    wordValueAt s a = wordAt s a ∧ noteReadWord s a = s := by
  have hnext : (a + 1).toNat ≤ 0xFEFF := by bv_omega
  obtain ⟨hvalue, hread, -⟩ := plainWord_of_not_device (s := s)
    (not_device_of_le (not_sfrArea_of_le ha.le)) (not_device_of_le (not_sfrArea_of_le hnext))
  exact ⟨hvalue, hread⟩

/-! Pops. -/

theorem inIhram_sp (h : StackHas s 1) : inIhram s.cfg s.sp = true := by
  have h0 := h 0 (by decide)
  rwa [BitVec.add_zero] at h0

theorem stackHas_of_le {m n : Nat} (h : StackHas s n) (hm : m ≤ n) : StackHas s m :=
  fun k hk => h k (hk.trans_le hm)

theorem pop16_of_has (h : StackHas s 2) : pop16 s = .ok (wordAt s s.sp, withSp s (s.sp + 2)) := by
  have h1 : inIhram s.cfg (s.sp + 1) = true := h 1 (by decide)
  refine pop16_eq_ok.2 ⟨inIhram_sp (stackHas_of_le h (by decide)), h1, ?_, ?_⟩
  · rw [byteAt_withSp_of_le (le_of_inIhram h1)]
    rfl
  · rw [add_assoc]
    rfl

/-- The state that returning from a handler answers. -/
def returned (s : State) : State :=
  { setPsw (withSp s (s.sp + 3)) (byteAt s (s.sp + 2)) with pc := wordAt s s.sp, hold := true }

theorem returned_effect (s : State) :
    Effect s (returned s) (wordAt s s.sp) true
      (spBytes (s.sp + 3) ++ [(pswAddr, byteAt s (s.sp + 2) &&& 0xFB)]) :=
  ((withSp_effect s (s.sp + 3)).trans (setPsw_effect ..)).endsAt ..

/-- Returning from a handler pops PC and then PSW, and sets `hold` (60_exceptions R416). -/
theorem returnFromVector_of_has (h : StackHas s 3) : returnFromVector s = .ok (returned s) := by
  have h2 : inIhram s.cfg (s.sp + 2) = true := h 2 (by decide)
  have hpsw : pop8 (withSp s (s.sp + 2)) = .ok (byteAt s (s.sp + 2), withSp s (s.sp + 3)) := by
    refine pop8_eq_ok.2 ⟨h2, byteAt_withSp_of_le (le_of_inIhram h2), ?_⟩
    rw [withSp_sp, add_assoc]
    rfl
  simp only [returnFromVector, pop16_of_has (stackHas_of_le h (by decide)), hpsw, bind, Except.bind]
  rfl

/-- What was pushed can be popped: the addresses from the new SP upwards are those from the old one downwards. -/
theorem stackHas_of_stackRoom {n : Nat} (h : StackRoom s n) (hcfg : t.cfg = s.cfg)
    (hsp : t.sp = s.sp - BitVec.ofNat 16 n) : StackHas t n := by
  intro k hk
  obtain ⟨m, rfl⟩ : ∃ m, n = m + 1 + k := ⟨n - 1 - k, by omega⟩
  have haddr : t.sp + BitVec.ofNat 16 k = s.sp - BitVec.ofNat 16 (m + 1) := by
    rw [hsp, BitVec.ofNat_add, sub_add_eq_sub_sub, sub_add_cancel]
  rw [hcfg, haddr]
  exact h m (by omega)

/-! Entering a handler. -/

theorem withBit_ie_false : ∀ p : Byte, withBit p ieBit false = p &&& 0x7F := by decide

/-- The state of a handler's entry before `mark` and the jump: PSW and the return address pushed, IE cleared. -/
def framed (s : State) (ret : Addr) : State := withPsw (pushed s [s.psw, hiByte ret, loByte ret]) (s.psw &&& 0x7F)

theorem framed_effect (ret : Addr) (h : StackRoom s 3) :
    Effect s (framed s ret) s.pc s.hold
      ([(s.sp - 1, s.psw), (s.sp - 2, hiByte ret), (s.sp - 3, loByte ret)] ++ spBytes (s.sp - 3) ++
        [(pswAddr, s.psw &&& 0x7F)]) := by
  rw [← frameBytes_three]
  exact (pushed_effect [s.psw, hiByte ret, loByte ret] h).trans (withPsw_effect ..)

theorem framed_sp (ret : Addr) (h : StackRoom s 3) : (framed s ret).sp = s.sp - 3 := by
  rw [framed, withPsw_sp, sp_pushed _ h]
  rfl

/-- Entering a handler goes on from the frame to the address in the vector table (60_exceptions R404, R410). -/
theorem enterVector_of_room {ret vector : Addr} {mark : State → State} (h : StackRoom s 3)
    (hlow : vector.toNat < 0xFEFF) (hr : Readable (mark (framed s ret)) .word vector)
    (hr' : Readable (mark (framed s ret)) .word (vector + 1)) :
    enterVector s ret vector mark =
      .ok (jump (mark (framed s ret)) (wordAt (mark (framed s ret)) vector)) := by
  have hframed : withPsw (pushed s [s.psw, hiByte ret, loByte ret])
      (withBit (pushed s [s.psw, hiByte ret, loByte ret]).psw ieBit false) = framed s ret := by
    rw [psw_pushed _ h, withBit_ie_false, framed]
  obtain ⟨hvalue, hread⟩ := plainWord_of_lt (mark (framed s ret)) hlow
  have hpsw : push8 s s.psw = .ok (pushed s [s.psw]) := push8_of_room _ (h 0 (by decide))
  have hret : push16 (pushed s [s.psw]) ret = .ok (pushed s [s.psw, hiByte ret, loByte ret]) :=
    push16_pushed (stackRoom_pushed h)
  refine enterVector_eq_ok.2 ⟨_, _, hpsw, hret, ?_⟩
  simp only [hframed, hvalue, hread, and_true]
  exact ⟨hr, hr'⟩

end Sys2Proof.Machine
end

section
/-! The obligations about calls, returns and the stack (47_call_return_stack). -/

namespace Sys2Proof.Machine

variable {i : Instr} {s t : State} {a : Addr} {ws : List (Addr × Byte)}

/-! SP as an operand (47 R312 to R314). -/

/-- Settles O35: two forms write SP, the third writes AX. -/
theorem movwStackPointer : Obligations.MovwStackPointer := by
  intro s w
  exact ⟨completes_of_advance rfl rfl (withSp_effect s w),
    completes_of_advance rfl rfl (withSp_effect s (pair s (bank s) .ax)),
    completes_of_advance rfl rfl (setPair_effect s (bank s) .ax s.sp)⟩

/-! Calls (47 R303 to R305). -/

theorem callTo_next {target : State → Except Fault (Addr × State)} {len : Addr} (h : StackRoom s 2)
    (ht : target (pushed s [hiByte (s.pc + len), loByte (s.pc + len)]) = .ok (a, t)) :
    callTo target len s = .next (jump t a) :=
  outcome_eq_next.2 (bind_eq_ok.2 ⟨_, push16_pushed h, bind_eq_ok.2 ⟨_, ht, rfl⟩⟩)

/-- A call whose target is in its encoding. -/
theorem call_completes {len : Addr} (hexec : exec i s = callTo (fun t => .ok (a, t)) len s) (h : StackRoom s 2) :
    Completes i s s a false
      ([(s.sp - 1, hiByte (s.pc + len)), (s.sp - 2, loByte (s.pc + len))] ++ spBytes (s.sp - 2)) :=
  ⟨_, hexec.trans (callTo_next h rfl), (pushWord_effect (s.pc + len) h).jump a⟩

/-- The top five bits of CALLF's target are 00001B (47 R304). -/
theorem callf_target (f : BitVec 11) : (0b00001 : BitVec 5) ++ f = 0x0800 + f.setWidth 16 := by
  have hf : f.toNat < 2 ^ 11 := f.isLt
  apply BitVec.eq_of_toNat_eq
  rw [BitVec.toNat_append, ← Nat.shiftLeft_add_eq_or_of_lt hf, BitVec.toNat_add, BitVec.toNat_setWidth]
  simp only [BitVec.toNat_ofNat, BitVec.ofNat_eq_ofNat]
  omega

theorem calltEntry_lt (e : BitVec 5) : (calltEntry e).toNat < 0xFEFF := by
  revert e; decide

/-- CALLT's target is read after the pushes. -/
theorem callt_completes (e : BitVec 5) (h : StackRoom s 2) (hr : Readable s .word (calltEntry e))
    (hr' : Readable s .word (calltEntry e + 1)) :
    ∃ u, exec (.callt e) s = .next u ∧ Effect s u (wordAt u (calltEntry e)) false
      ([(s.sp - 1, hiByte (s.pc + 1)), (s.sp - 2, loByte (s.pc + 1))] ++ spBytes (s.sp - 2)) := by
  have heffect := pushWord_effect (s.pc + 1) h
  obtain ⟨hvalue, hread⟩ := plainWord_of_lt (pushed s [hiByte (s.pc + 1), loByte (s.pc + 1)]) (calltEntry_lt e)
  have hload := load16_of_readable (heffect.readable hr) (heffect.readable hr')
  rw [hvalue, hread] at hload
  refine ⟨_, callTo_next h hload, ?_⟩
  rw [wordAt_jump]
  exact heffect.jump _

/-- Settles O31: the three calls push the same frame and differ in where the target comes from. -/
theorem calls : Obligations.Calls := by
  intro s a f e h
  refine ⟨call_completes rfl h, ?_, callt_completes e h⟩
  rw [← callf_target]
  exact call_completes rfl h

/-! BRK (47 R306). -/

theorem exec_brk_of_room (h : StackRoom s 3) (hr : Readable s .word 0x003E) (hr' : Readable s .word 0x003F) :
    exec .brk s = .next (jump (framed s (s.pc + 1)) (wordAt (framed s (s.pc + 1)) 0x003E)) :=
  have heffect := framed_effect (s.pc + 1) h
  outcome_eq_next.2 (enterVector_of_room (vector := brkVector) (mark := fun t => t) h (by decide)
    (heffect.readable hr) (heffect.readable hr'))

/-- Settles O32: the frame, with SP named last, and the jump. -/
theorem brkEntersHandler : Obligations.BrkEntersHandler := by
  intro s h hr hr'
  refine ⟨_, exec_brk_of_room h hr hr', ?_⟩
  rw [wordAt_jump]
  exact ((framed_effect (s.pc + 1) h).spLast (framed_sp _ h)).jump _

/-! Returns (47 R307 to R309). -/

theorem exec_ret_of_has (h : StackHas s 2) : exec .ret s = .next (jump (withSp s (s.sp + 2)) (wordAt s s.sp)) :=
  outcome_eq_next.2 (bind_eq_ok.2 ⟨_, pop16_of_has h, rfl⟩)

theorem exec_retb_of_has (h : StackHas s 3) : exec .retb s = .next (returned s) :=
  outcome_eq_next.2 (returnFromVector_of_has h)

theorem exec_reti_of_has (h : StackHas s 3) : exec .reti s = .next { returned s with nmis := false } :=
  outcome_eq_next.2 (bind_eq_ok.2 ⟨_, returnFromVector_of_has h, rfl⟩)

/-- Settles O33: RETI is RETB with NMIS cleared. -/
theorem returns : Obligations.Returns := by
  intro s
  refine ⟨fun h => ⟨_, exec_ret_of_has h, (withSp_effect s (s.sp + 2)).jump _⟩, fun h => ?_⟩
  exact ⟨⟨_, exec_reti_of_has h, (returned_effect s).withNmis false⟩, ⟨_, exec_retb_of_has h, returned_effect s⟩⟩

/-! PUSH and POP (47 R310, R311). -/

theorem exec_pushPsw_of_room (h : StackRoom s 1) : exec .pushPsw s = .next (advance (pushed s [s.psw]) 1) :=
  outcome_eq_next.2 (bind_eq_ok.2 ⟨_, push8_pushed h, rfl⟩)

theorem exec_pushRp_of_room (p : RegPair) (h : StackRoom s 2) :
    exec (.pushRp p) s =
      .next (advance (pushed s [hiByte (pair s (bank s) p), loByte (pair s (bank s) p)]) 1) :=
  outcome_eq_next.2 (bind_eq_ok.2 ⟨_, push16_pushed h, rfl⟩)

theorem exec_popPsw_of_has (h : StackHas s 1) :
    exec .popPsw s = .next (advance (setPsw (withSp s (s.sp + 1)) (byteAt s s.sp)) 1 true) :=
  outcome_eq_next.2 (bind_eq_ok.2 ⟨_, pop8_of_has (inIhram_sp h), rfl⟩)

theorem exec_popRp_of_has (p : RegPair) (h : StackHas s 2) :
    exec (.popRp p) s = .next (advance (setPair (withSp s (s.sp + 2)) (bank s) p (wordAt s s.sp)) 1) :=
  outcome_eq_next.2 (bind_eq_ok.2 ⟨_, pop16_of_has h, rfl⟩)

/-- PUSH rp's stores, the high register at the higher address. -/
theorem pushRp_runs (p : RegPair) (h : StackRoom s 2) :
    Runs (.pushRp p) s
      ([(s.sp - 1, reg s (bank s) p.highReg), (s.sp - 2, reg s (bank s) p.lowReg)] ++ spBytes (s.sp - 2)) := by
  rw [← hiByte_pair, ← loByte_pair]
  exact completes_of_advance (exec_pushRp_of_room p h) rfl (pushWord_effect _ h)

/-- Settles O34, from the next state of each form. -/
theorem pushAndPop : Obligations.PushAndPop := by
  intro s p
  exact ⟨fun h => completes_of_advance (exec_pushPsw_of_room h) rfl (pushed_effect [s.psw] h), pushRp_runs p,
    fun h => completes_of_advance (exec_popPsw_of_has h) rfl
      ((withSp_effect s (s.sp + 1)).trans (setPsw_effect ..)),
    fun h => completes_of_advance (exec_popRp_of_has p h) rfl
      ((withSp_effect s (s.sp + 2)).trans (setPair_effect ..))⟩

/-! What is pushed is popped. -/

/-- After BRK, what a return pops is on the stack: the cleared IE and the new SP are stored elsewhere. -/
theorem brk_leaves_frame (h : StackRoom s 3) (hr : Readable s .word 0x003E) (hr' : Readable s .word 0x003F) :
    ∃ t, exec .brk s = .next t ∧ StackHas t 3 ∧ wordAt t t.sp = s.pc + 1 ∧ byteAt t (t.sp + 2) = s.psw ∧
      t.sp + 3 = s.sp ∧ t.nmis = s.nmis := by
  obtain ⟨t, ht, -, -, ⟨hcfg, hnmis, -⟩, hwritten⟩ := brkEntersHandler s h hr hr'
  have hsp : t.sp = s.sp - 3 := hwritten.sp_of_last _
  have hhas : StackHas t 3 := stackHas_of_stackRoom h hcfg hsp
  have h0 : t.sp.toNat ≤ 0xFEFF := le_of_inIhram (inIhram_sp (stackHas_of_le hhas (by decide)))
  have h1 : (t.sp + 1).toNat ≤ 0xFEFF := le_of_inIhram (hhas 1 (by decide))
  have h2 : (t.sp + 2).toNat ≤ 0xFEFF := le_of_inIhram (hhas 2 (by decide))
  rw [← hsp, show s.sp - 1 = t.sp + 2 by bv_omega, show s.sp - 2 = t.sp + 1 by bv_omega] at hwritten
  have hpsw : byteAt t (t.sp + 2) = s.psw :=
    hwritten.byteAt_of_last [] (List.forall_mem_cons.2 ⟨by bv_omega,
      List.forall_mem_cons.2 ⟨by bv_omega, control_ne _ _ h2⟩⟩)
  exact ⟨t, ht, hhas, hwritten.wordAt_of_last [(t.sp + 2, s.psw)] (control_ne _ _ h0) (control_ne _ _ h1), hpsw,
    by rw [hsp, sub_add_cancel], hnmis⟩

/-- Settles O36: RETB pops the frame that BRK leaves, and PSW loses nothing to the mask. -/
theorem retbUndoesBrk : Obligations.RetbUndoesBrk := by
  intro s h hr hr' hbit
  obtain ⟨t, ht, hhas, hret, hpushed, hsp, hnmis⟩ := brk_leaves_frame h hr hr'
  have hpsw : (returned t).psw = s.psw :=
    calc byteAt t (t.sp + 2) &&& 0xFB
      _ = s.psw &&& 0xFB := by rw [hpushed]
      _ = s.psw := mask_of_bit2 _ hbit
  exact ⟨t, returned t, ht, exec_retb_of_has hhas, hret, hpsw, hsp, rfl, hnmis⟩

/-- After PUSH rp, what POP rp pops is on the stack. -/
theorem pushRp_leaves_pair (p : RegPair) (h : StackRoom s 2) :
    ∃ t, exec (.pushRp p) s = .next t ∧ StackHas t 2 ∧ wordAt t t.sp = pair s (bank s) p ∧ t.sp + 2 = s.sp ∧
      t.psw = s.psw ∧ t.pc = s.pc + 1 := by
  obtain ⟨hpc, -, ⟨hcfg, -⟩, -⟩ := pushWord_effect (pair s (bank s) p) h
  have hsp := sp_pushed [hiByte (pair s (bank s) p), loByte (pair s (bank s) p)] h
  refine ⟨_, exec_pushRp_of_room p h, stackHas_of_stackRoom h hcfg hsp, ?_, ?_, ?_, ?_⟩
  · rw [wordAt_advance, advance_sp, hsp]
    exact wordAt_pushed (pair s (bank s) p) h
  · rw [advance_sp, hsp]
    exact sub_add_cancel s.sp 2
  · rw [advance_psw, psw_pushed _ h]
  · rw [advance_pc, hpc]

/-- After POP rp, the pair is the word that was on the stack; RBS is the one before, as PSW is. -/
theorem popRp_loads_pair (p : RegPair) (h : StackHas s 2) :
    ∃ t, exec (.popRp p) s = .next t ∧ pair t (bank t) p = wordAt s s.sp ∧ t.sp = s.sp + 2 ∧ t.psw = s.psw ∧
      t.pc = s.pc + 1 := by
  refine ⟨_, exec_popRp_of_has p h, ?_, ?_, ?_, ?_⟩
  · rw [pair_advance, bank_advance, bank_setPair, bank_withSp, pair_setPair]
  · rw [advance_sp, setPair_sp, withSp_sp]
  · rw [advance_psw, setPair_psw, withSp_psw]
  · rw [advance_pc, setPair_pc, withSp_pc]

/-- Settles O37: POP rp writes the pair last, with the word on the stack, wherever that lies. -/
theorem popUndoesPush : Obligations.PopUndoesPush := by
  intro s p h
  obtain ⟨t, ht, hhas, hword, hsp, hpsw, hpc⟩ := pushRp_leaves_pair p h
  obtain ⟨u, hu, hpair, gsp, gpsw, gpc⟩ := popRp_loads_pair p hhas
  refine ⟨t, u, ht, hu, hpair.trans hword, gsp.trans hsp, gpsw.trans hpsw, ?_⟩
  rw [gpc, hpc, add_assoc]
  rfl

end Sys2Proof.Machine
end

section
/-! The obligations about branches (48_branch). -/

namespace Sys2Proof.Machine

variable {i : Instr} {s base t u : State} {n : BitVec 3} {j : Byte} {x : BitPlace} {c : Bool}
  {ws : List (Addr × Byte)}

/-! Relative branches end at the target or behind the instruction (48 R330). -/

theorem branchIf_eq_jump (c : Bool) (i : Instr) (j : Byte) (hpc : u.pc = s.pc) :
    branchIf c (BitVec.ofNat 16 i.length) j u = jump u (if c then target i s j else after i s) := by
  rw [branchIf, relTarget, nextPc, hpc, target, after, sext16]

/-- An instruction that makes its updates and branches on the condition `c`. -/
theorem completes_of_branchIf (hexec : exec i s = .next (branchIf c (BitVec.ofNat 16 i.length) j u))
    (h : Effect base u s.pc s.hold ws) :
    Completes i s base (if c then target i s j else after i s) false ws := by
  rw [branchIf_eq_jump c i j h.1] at hexec
  exact ⟨_, hexec, h.jump _⟩

/-- Settles O38: the three forms differ in where the target comes from. -/
theorem unconditionalBranches : Obligations.UnconditionalBranches := by
  intro s a j
  exact ⟨⟨_, rfl, (Effect.refl s).jump a⟩, completes_of_branchIf (c := true) rfl (Effect.refl s),
    ⟨_, rfl, (Effect.refl s).jump _⟩⟩

/-- Settles O39: the four forms differ in the condition. -/
theorem branchesOnFlags : Obligations.BranchesOnFlags := by
  intro s j
  exact ⟨completes_of_branchIf rfl (Effect.refl s), completes_of_branchIf rfl (Effect.refl s),
    completes_of_branchIf rfl (Effect.refl s), completes_of_branchIf rfl (Effect.refl s)⟩

/-! Branches on a bit (48 R340 to R342). -/

/-- A read of a byte changes what a device SFR has seen, and nothing else (20_memory R79). -/
theorem noteRead_effect (s : State) (a : Addr) : Effect (noteRead s a) (noteRead s a) s.pc s.hold [] :=
  Effect.refl (noteRead s a)

/-- Settles O40: BT and BF run one operation, which reads the bit and compares it with `v`. -/
theorem branchesOnBits : Obligations.BranchesOnBits := by
  intro s v n j x hx hr
  have hexec := (exec_branchIfBit v j n x s).trans (branchOnBit_next v n _ j hx hr)
  have hcompletes := completes_of_branchIf hexec (noteRead_effect s (x.addr s))
  simp only [bitOf, beq_iff_eq] at hcompletes
  exact hcompletes

theorem branchAndClearBit_completes_of_one (hx : x.Named) (hr : Readable s .bit (x.addr s))
    (hbit : bitOf (valueAt s (x.addr s)) n = true) (hw : Writable s .bit (x.addr s)) :
    let i := branchAndClearBit j n x
    let byte := replaceBit (valueAt s (x.addr s)) n false
    Completes i s (noteUpdate s (x.addr s) byte) (target i s j) false [(x.addr s, stored (x.addr s) byte)] := by
  rw [← withBit_eq_replaceBit]
  exact completes_of_branchIf (c := true)
    ((exec_branchAndClearBit j n x s).trans (branchAndClear_next_one _ j hx hr hw hbit)) (putByte_effect ..)

theorem branchAndClearBit_completes_of_zero (hx : x.Named) (hr : Readable s .bit (x.addr s))
    (hbit : bitOf (valueAt s (x.addr s)) n = false) :
    let i := branchAndClearBit j n x
    Completes i s (noteRead s (x.addr s)) (after i s) false [] :=
  completes_of_branchIf (c := false)
    ((exec_branchAndClearBit j n x s).trans (branchAndClear_next_zero _ j hx hr hbit)) (noteRead_effect ..)

/-- Settles O41, from the two values of the bit. -/
theorem testAndClear : Obligations.TestAndClear := by
  intro s n j x hx hr
  exact ⟨branchAndClearBit_completes_of_one hx hr, branchAndClearBit_completes_of_zero hx hr⟩

/-! DBNZ (48 R343). -/

theorem ite_bne_zero {α : Type} (v : Byte) (taken next : α) :
    (if v != 0 then taken else next) = if v = 0 then next else taken := by
  by_cases hv : v = 0 <;> simp [hv]

/-- The end of DBNZ, wherever its byte lies: the decrement is stored, and then the branch taken or not. -/
theorem countByte_completes {a : Addr} {v : Byte} (hv : v = valueAt s a - 1)
    (hexec : exec i s = .next (branchIf (v != 0) (BitVec.ofNat 16 i.length) j (putByte (noteUpdate s a v) a v))) :
    Completes i s (noteUpdate s a (valueAt s a - 1)) (if valueAt s a - 1 = 0 then after i s else target i s j) false
      [(a, stored a (valueAt s a - 1))] := by
  rw [← hv, ← ite_bne_zero]
  exact completes_of_branchIf hexec (putByte_effect ..)

/-- A register is no device SFR: it reads as its byte, and its calls are seen by none. -/
theorem countReg_eq (r : Reg8) (len : Addr) (j : Byte) (s : State) :
    let a := regAddr (bank s) r
    let v := valueAt s a - 1
    countReg r len j s = branchIf (v != 0) len j (putByte (noteUpdate s a v) a v) := by
  obtain ⟨hvalue, hread, hwrite⟩ := plain_of_not_device (isDevice_regAddr s.cfg (bank s) r)
  simp only [noteUpdate, hread, hwrite, hvalue]
  rfl

/-- Settles O42, from the next state of DBNZ of a register and of a byte of memory. -/
theorem decrementAndBranch : Obligations.DecrementAndBranch := by
  intro s o j
  exact ⟨countByte_completes rfl (congrArg Host.Outcome.next (countReg_eq .b 2 j s)),
    countByte_completes rfl (congrArg Host.Outcome.next (countReg_eq .c 2 j s)),
    fun hr hw => countByte_completes rfl (countMem_next (m := .saddr o) 3 j trivial hr hw)⟩

end Sys2Proof.Machine
end

section
/-! The obligations about CPU control (49_cpu_control). -/

namespace Sys2Proof.Machine

variable {s t : State} {pc : Addr} {hold : Bool} {ws : List (Addr × Byte)}

theorem withBit_ie_true : ∀ p : Byte, withBit p ieBit true = p ||| 0x80 := by decide

/-- SEL's two bit writes, as one mask and two bits (49 R360). -/
theorem withBit_bank : ∀ (p : Byte) (hi lo : Bool), withBit (withBit p 5 hi) 3 lo =
    (p &&& 0xD7) ||| (if hi then 0x20 else 0x00) ||| (if lo then 0x08 else 0x00) := by decide

theorem ofBool_append_ofBool : ∀ b : BitVec 2, BitVec.ofBool (b.getLsbD 1) ++ BitVec.ofBool (b.getLsbD 0) = b := by
  decide

/-- The bank after both bank bits are written is the one they number (10_state R26). -/
theorem bank_of_bank_bits (b : BitVec 2)
    (hpsw : s.psw = withBit (withBit t.psw 5 (b.getLsbD 1)) 3 (b.getLsbD 0)) : bank s = b := by
  have hhigh : bitOf s.psw 5 = b.getLsbD 1 := by
    rw [hpsw, bitOf_withBit, if_neg (by decide), bitOf_withBit, if_pos rfl]
  have hlow : bitOf s.psw 3 = b.getLsbD 0 := by rw [hpsw, bitOf_withBit, if_pos rfl]
  rw [bank, hhigh, hlow, ofBool_append_ofBool]

/-- Settles O43: each form writes PSW, or nothing, and ends behind its own bytes. -/
theorem cpuControl : Obligations.CpuControl := by
  intro s b
  rw [← withBit_bank, ← withBit_ie_true, ← withBit_ie_false]
  exact ⟨⟨_, rfl, bank_of_bank_bits (t := s) b rfl, (withPsw_effect ..).advance 2 false⟩,
    completes_of_advance rfl rfl (Effect.refl s), completes_of_advance rfl rfl (withPsw_effect ..),
    completes_of_advance rfl rfl (withPsw_effect ..)⟩

/-- The standby mode has no address, and no part in the stores. -/
theorem Effect.withMode (h : Effect s t pc hold ws) (mode : Mode) :
    Effect { s with mode := mode } { t with mode := mode } pc hold ws := by
  obtain ⟨hpc, hhold, ⟨hcfg, hnmis, hpending, -, hhidden⟩, hwritten⟩ := h
  exact ⟨hpc, hhold, ⟨hcfg, hnmis, hpending, rfl, hhidden⟩, hwritten⟩

/-- Settles O44: the end of an instruction, and then the mode. -/
theorem haltAndStop : Obligations.HaltAndStop := by
  intro s
  exact ⟨⟨_, rfl, ((Effect.refl s).advance 2 false).withMode .halt⟩,
    ⟨_, rfl, ((Effect.refl s).advance 2 false).withMode .stop⟩⟩

end Sys2Proof.Machine
end

section
/-! The obligations about interrupts and standby (60_exceptions). -/

namespace Sys2Proof.Machine

variable {s : State} {src : IntSource}

/-! Which source is acknowledged (60 R412, R414). -/

/-- A source that both meets the acknowledgement condition and can end the present mode. -/
def candidate (s : State) (src : IntSource) : Bool := admissible s src && wakes s src

/-- The acknowledgement condition is that of R412. -/
theorem admissible_iff : admissible s src = true ↔ CanAcknowledge s src := by
  unfold admissible CanAcknowledge unmasked
  cases src.kind with
  | nonMaskable => simp [and_assoc]
  | maskable request mask priority => simp [and_assoc, ie, isp, ieBit]

theorem candidate_iff : candidate s src = true ↔ CanAcknowledge s src ∧ wakes s src = true := by
  rw [candidate, Bool.and_eq_true, admissible_iff]

theorem rank_le_two (s : State) (src : IntSource) : rank s src ≤ 2 := by
  unfold rank
  split
  · decide
  · split <;> decide

/-- The first candidate of the given rank, in the order of the sources. -/
def firstOfRank (s : State) (k : Nat) : Option IntSource :=
  s.cfg.sources.find? (fun src => candidate s src && rank s src == k)

theorem firstOfRank_eq_none_iff {k : Nat} :
    firstOfRank s k = none ↔ ∀ o ∈ s.cfg.sources, candidate s o = true → rank s o ≠ k := by
  simp only [firstOfRank, List.find?_eq_none, Bool.and_eq_true, beq_iff_eq, not_and]

theorem firstOfRank_eq_some {k : Nat} (h : firstOfRank s k = some src) :
    candidate s src = true ∧ rank s src = k ∧
      ∃ pre post, s.cfg.sources = pre ++ src :: post ∧ ∀ o ∈ pre, candidate s o = true → rank s o ≠ k := by
  obtain ⟨hsrc, pre, post, hsplit, hpre⟩ := List.find?_eq_some_iff_append.1 h
  obtain ⟨hcandidate, hrank⟩ := Bool.and_eq_true_iff.1 hsrc
  refine ⟨hcandidate, beq_iff_eq.1 hrank, pre, post, hsplit, fun o ho hc hk => ?_⟩
  have hnot := hpre o ho
  rw [hc, hk, beq_self_eq_true] at hnot
  exact absurd hnot (by decide)

/-- With no candidate of rank 0 or 1, every candidate has rank 2. -/
theorem find?_candidate (h0 : firstOfRank s 0 = none) (h1 : firstOfRank s 1 = none) :
    s.cfg.sources.find? (candidate s) = firstOfRank s 2 := by
  rw [firstOfRank_eq_none_iff] at h0 h1
  refine List.find?_congr fun o ho => ?_
  cases hc : candidate s o with
  | false => rfl
  | true =>
    have hle := rank_le_two s o
    have hne0 := h0 o ho hc
    have hne1 := h1 o ho hc
    rw [show rank s o = 2 by omega]
    rfl

theorem selected_eq (s : State) : selected s = (firstOfRank s 0).or ((firstOfRank s 1).or (firstOfRank s 2)) := by
  have hselected : selected s = (firstOfRank s 0).or ((firstOfRank s 1).or (s.cfg.sources.find? (candidate s))) := by
    simp only [selected, List.find?_filter, List.head?_filter, firstOfRank, Bool.decide_and, Bool.decide_eq_true]
    rfl
  rw [hselected]
  cases h0 : firstOfRank s 0 with
  | some src => rfl
  | none =>
    cases h1 : firstOfRank s 1 with
    | some src => rfl
    | none => rw [find?_candidate h0 h1]

theorem selected_eq_none_iff : selected s = none ↔ ∀ o ∈ s.cfg.sources, ¬candidate s o = true := by
  simp only [selected_eq, Option.or_eq_none_iff, firstOfRank_eq_none_iff]
  constructor
  · rintro ⟨h0, h1, h2⟩ o ho hc
    have hle := rank_le_two s o
    have hne0 := h0 o ho hc
    have hne1 := h1 o ho hc
    have hne2 := h2 o ho hc
    omega
  · intro h
    exact ⟨fun o ho hc => absurd hc (h o ho), fun o ho hc => absurd hc (h o ho), fun o ho hc => absurd hc (h o ho)⟩

/-- The selected source is the first of its rank, and no candidate has a lower rank. -/
theorem firstOfRank_of_selected (h : selected s = some src) :
    ∃ k, firstOfRank s k = some src ∧ ∀ o ∈ s.cfg.sources, candidate s o = true → k ≤ rank s o := by
  rw [selected_eq, Option.or_eq_some_iff, Option.or_eq_some_iff] at h
  obtain h | ⟨h0, h | ⟨h1, h⟩⟩ := h
  · exact ⟨0, h, fun o _ _ => Nat.zero_le _⟩
  · exact ⟨1, h, fun o ho hc => Nat.pos_of_ne_zero (firstOfRank_eq_none_iff.1 h0 o ho hc)⟩
  · refine ⟨2, h, fun o ho hc => ?_⟩
    have hne0 := firstOfRank_eq_none_iff.1 h0 o ho hc
    have hne1 := firstOfRank_eq_none_iff.1 h1 o ho hc
    omega

/-- Settles O45: no candidate is skipped, and the first of the lowest rank is taken. -/
theorem acknowledgedSource : Obligations.AcknowledgedSource := by
  intro s
  simp only [selected_eq_none_iff, candidate_iff, true_and]
  intro src h
  obtain ⟨k, hfirst, hleast⟩ := firstOfRank_of_selected h
  obtain ⟨hsrc, rfl, pre, post, hsplit, hpre⟩ := firstOfRank_eq_some hfirst
  obtain ⟨hcan, hwakes⟩ := candidate_iff.1 hsrc
  refine ⟨hcan, hwakes, fun o ho hc hw => hleast o ho (candidate_iff.2 ⟨hc, hw⟩), pre, post, hsplit,
    fun o ho hc hw => ?_⟩
  have ho' : o ∈ s.cfg.sources := hsplit ▸ List.mem_append_left _ ho
  have hcandidate : candidate s o = true := candidate_iff.2 ⟨hc, hw⟩
  exact lt_of_le_of_ne (hleast o ho' hcandidate) (hpre o ho hcandidate).symm

/-! Standby (60 R432). -/

theorem released_iff : released s = true ↔
    ∃ src ∈ s.cfg.sources, wakes s src = true ∧ requested s src = true ∧ unmasked s src = true := by
  simp only [released, List.any_eq_true, Bool.and_eq_true, and_assoc]

theorem step_of_standby (hmode : s.mode ≠ .run) (hsel : selected s = none) :
    step s = .next (if released s then { s with mode := .run } else s) := by
  unfold step
  rw [hsel]
  cases hm : s.mode with
  | run => exact absurd hm hmode
  | halt => rfl
  | stop => rfl

/-- Settles O47: a step of a standby mode asks only whether a request releases it. -/
theorem standbyWaitsForRelease : Obligations.StandbyWaitsForRelease := by
  intro s hmode hsel
  rw [step_of_standby hmode hsel]
  refine ⟨fun h => ?_, fun h => ?_⟩
  · rw [if_pos (released_iff.2 h)]
  · rw [if_neg (fun hr => ?_)]
    obtain ⟨src, hsrc, hreleases⟩ := released_iff.1 hr
    exact h src hsrc hreleases

end Sys2Proof.Machine
end

section
/-! The obligation about acknowledging an interrupt (60_exceptions R410, R413). -/

namespace Sys2Proof.Machine

variable {s base t : State} {src : IntSource} {f request mask priority : FlagLoc} {a pc : Addr} {v v' : Byte}
  {hold : Bool} {us ws : List (Addr × Byte)}

/-! Stores over stores, and stores of a handler's frame. -/

/-- A store hides one to the same address right before it. -/
theorem Effect.overwrite (h : Effect s t pc hold (us ++ [(a, v)] ++ [(a, v')])) :
    Effect s t pc hold (us ++ [(a, v')]) := by
  obtain ⟨hpc, hhold, hhidden, hwritten⟩ := h
  refine ⟨hpc, hhold, hhidden, fun b => (hwritten b).trans ?_⟩
  simp only [overlay_concat]
  split_ifs <;> rfl

theorem inSfrArea_ne (ha : inSfrArea a = true) {b : Addr} (hb : b.toNat ≤ 0xFEFF) : b ≠ a := by
  rintro rfl
  rw [not_sfrArea_of_le hb] at ha
  cases ha

theorem isControl_ne (ha : isControl a = false) : spLowAddr ≠ a ∧ spHighAddr ≠ a ∧ pswAddr ≠ a := by
  refine ⟨?_, ?_, ?_⟩ <;> (rintro rfl; cases ha)

/-- An SFR other than PSW and SP is none of the bytes that entering a handler stores. -/
theorem byteAt_framed (ret : Addr) (h : StackRoom s 3) (ha : inSfrArea a = true) (hc : isControl a = false) :
    byteAt (framed s ret) a = byteAt s a := by
  obtain ⟨-, -, -, hwritten⟩ := framed_effect ret h
  obtain ⟨hlow, hhigh, hpsw⟩ := isControl_ne hc
  have h1 := inSfrArea_ne ha (le_of_inIhram (h 0 (by decide)))
  have h2 := inSfrArea_ne ha (le_of_inIhram (h 1 (by decide)))
  have h3 := inSfrArea_ne ha (le_of_inIhram (h 2 (by decide)))
  apply hwritten.byteAt_of_not_stored
  simp only [spBytes, List.cons_append, List.nil_append, List.forall_mem_cons, List.not_mem_nil, false_implies,
    implies_true, and_true]
  exact ⟨h1, h2, h3, hlow, hhigh, hpsw⟩

/-! What acknowledgement records (60 R413, R414). -/

@[simp] theorem recordAcknowledge_cfg (s : State) (src : IntSource) : (recordAcknowledge s src).cfg = s.cfg := by
  unfold recordAcknowledge putFlag
  split <;> simp

@[simp] theorem recordAcknowledge_pc (s : State) (src : IntSource) : (recordAcknowledge s src).pc = s.pc := by
  unfold recordAcknowledge putFlag
  split <;> simp

theorem recordAcknowledge_nonMaskable (hkind : src.kind = .nonMaskable) (s : State) :
    recordAcknowledge s src =
      { s with nmis := true, nmiPending := s.nmiPending &&& ~~~(1#32 <<< vectorIndex src) } := by
  simp only [recordAcknowledge, hkind]

theorem recordAcknowledge_maskable (hkind : src.kind = .maskable request mask priority) (s : State) :
    recordAcknowledge s src = putFlag (withPsw s (replaceBit s.psw 1 (flagAt s priority))) request false := by
  simp only [recordAcknowledge, hkind, withBit_eq_replaceBit]

/-- An interrupt flag outside PSW and SP is written as a bit of its byte. -/
theorem putFlag_effect (b : Bool) (hc : isControl f.addr = false) :
    Effect s (putFlag s f b) s.pc s.hold [(f.addr, replaceBit (byteAt s f.addr) f.bit b)] := by
  obtain ⟨-, -, hpsw⟩ := isControl_ne hc
  rw [← withBit_eq_replaceBit]
  have heffect := putByte_effect s f.addr (withBit (byteAt s f.addr) f.bit b)
  rwa [stored, if_neg hpsw.symm] at heffect

/-- The stores of entering a handler from the interrupted PC, before IE is cleared (60 R410). -/
def interruptFrame (s : State) : List (Addr × Byte) :=
  [(s.sp - 1, s.psw), (s.sp - 2, hiByte s.pc), (s.sp - 3, loByte s.pc)] ++ spBytes (s.sp - 3)

theorem interrupted_effect (h : StackRoom s 3) :
    Effect s (framed s s.pc) s.pc s.hold (interruptFrame s ++ [(pswAddr, s.psw &&& 0x7F)]) := framed_effect s.pc h

/-- NMIS and the pending requests of the non-maskable sources have no address, and no part in the stores. -/
theorem Effect.withNonMaskable (h : Effect s t pc hold ws) (kept : BitVec 32) :
    Effect { s with nmis := true, nmiPending := s.nmiPending &&& kept }
      { t with nmis := true, nmiPending := t.nmiPending &&& kept } pc hold ws := by
  obtain ⟨hpc, hhold, ⟨hcfg, -, hpending, hhidden⟩, hwritten⟩ := h
  exact ⟨hpc, hhold, ⟨hcfg, rfl, congrArg (· &&& kept) hpending, hhidden⟩, hwritten⟩

/-- A non-maskable source: NMIS is set and the pending bit cleared, and neither has an address. -/
theorem recordAcknowledge_nonMaskable_effect (hkind : src.kind = .nonMaskable) (h : StackRoom s 3) :
    Effect { s with nmis := true, nmiPending := s.nmiPending &&& ~~~(1#32 <<< vectorIndex src) }
      (recordAcknowledge (framed s s.pc) src) s.pc s.hold (interruptFrame s ++ [(pswAddr, s.psw &&& 0x7F)]) := by
  rw [recordAcknowledge_nonMaskable hkind]
  exact (interrupted_effect h).withNonMaskable _

/-- A maskable source: ISP goes on top of the cleared IE, and the request flag's byte is as it was before the pushes. -/
theorem recordAcknowledge_maskable_effect (hkind : src.kind = .maskable request mask priority) (h : StackRoom s 3)
    (ha : inSfrArea request.addr = true) (hc : isControl request.addr = false)
    (ha' : inSfrArea priority.addr = true) (hc' : isControl priority.addr = false) :
    Effect s (recordAcknowledge (framed s s.pc) src) s.pc s.hold
      (interruptFrame s ++ [(pswAddr, replaceBit (s.psw &&& 0x7F) 1 (flagAt s priority))] ++
        [(request.addr, replaceBit (byteAt s request.addr) request.bit false)]) := by
  obtain ⟨-, -, hpsw⟩ := isControl_ne hc
  have hisp := ((interrupted_effect h).trans
    (withPsw_effect _ (replaceBit (s.psw &&& 0x7F) 1 (flagAt s priority)))).overwrite
  have hpriority : flagAt (framed s s.pc) priority = flagAt s priority := by
    rw [flagAt, byteAt_framed _ h ha' hc', flagAt]
  have hrequest : byteAt (withPsw (framed s s.pc) (replaceBit (s.psw &&& 0x7F) 1 (flagAt s priority))) request.addr =
      byteAt s request.addr := by
    rw [byteAt_withPsw, if_neg hpsw, byteAt_framed _ h ha hc]
  rw [recordAcknowledge_maskable hkind, hpriority, ← hrequest]
  exact hisp.trans (putFlag_effect false hc)

/-! The step (60 R410; 92 D12). -/

theorem step_of_selected (hsel : selected s = some src) : step s = outcome (acknowledge s src) := by
  simp only [step, hsel]

/-- An acknowledgement, from what is pushed and recorded before the jump to the handler. -/
theorem step_acknowledges (hsel : selected s = some src) (h : StackRoom s 3) (hvector : src.vector.toNat ≤ 0x003C)
    (hr : Readable s .word src.vector) (hr' : Readable s .word (src.vector + 1))
    (heffect : Effect base (recordAcknowledge (framed s s.pc) src) pc hold ws) :
    ∃ t, step s = .next t ∧ Effect { base with mode := .run } t (wordAt t src.vector) false ws := by
  have hreadable : ∀ {b : Addr}, Readable s .word b →
      Readable { recordAcknowledge (framed s s.pc) src with mode := .run } .word b := by
    obtain ⟨hpc, -, ⟨hcfg, -⟩, -⟩ := interrupted_effect h
    have hcfg' := (recordAcknowledge_cfg (framed s s.pc) src).trans hcfg
    have hpc' := (recordAcknowledge_pc (framed s s.pc) src).trans hpc
    exact fun {_} hb => (checkRead_congr hcfg' hpc' .word _).trans hb
  have hstep := (step_of_selected hsel).trans (outcome_eq_next.2
    (enterVector_of_room (mark := fun t => { recordAcknowledge t src with mode := .run }) h (by omega)
      (hreadable hr) (hreadable hr')))
  exact ⟨_, hstep, (heffect.withMode .run).jump _⟩

/-- Settles O46: both kinds of source share the frame and the jump, and differ in what is recorded. -/
theorem interruptAcknowledgement : Obligations.InterruptAcknowledgement := by
  intro s src hsel h hvector hr hr'
  refine ⟨fun hkind => ?_, fun request mask priority hkind ha hc ha' hc' => ?_⟩
  · exact step_acknowledges hsel h hvector hr hr' (recordAcknowledge_nonMaskable_effect hkind h)
  · have heffect := recordAcknowledge_maskable_effect hkind h ha hc ha' hc'
    rw [List.append_assoc] at heffect
    exact step_acknowledges hsel h hvector hr hr' heffect

end Sys2Proof.Machine
end

section
/-! SUPPORT. What stands at an address after a part of memory is taken and a list of cells is stored, as RESET does
(70_reset R452, R454). -/

namespace Sys2Proof.Machine

variable {m : Memory} {p : Nat → Bool} {cells : List Host.Cell} {a : Nat} {v : Byte}

theorem read_restrict (p : Nat → Bool) (m : Memory) (a : Nat) :
    (m.restrict p).read a = if p a then m.read a else Memory.unlisted a := by
  induction m with
  | nil => exact (ite_self _).symm
  | cons c m ih =>
    obtain ⟨k, w⟩ := c
    by_cases hk : k = a
    · subst hk
      cases hp : p k <;> simp_all [Memory.restrict, Memory.read]
    · cases hp : p k <;> simp_all [Memory.restrict, Memory.read]

/-- No address of a memory in canonical form is listed twice. -/
theorem nodup_of_wf (h : m.wf = true) : (m.map Prod.fst).Nodup := by
  induction m with
  | nil => exact List.nodup_nil
  | cons c m ih =>
    obtain ⟨k, w⟩ := c
    simp only [Memory.wf, Memory.above, Bool.and_eq_true, List.all_eq_true, decide_eq_true_eq] at h
    obtain ⟨⟨-, habove⟩, hwf⟩ := h
    refine List.nodup_cons.2 ⟨fun hk => ?_, ih hwf⟩
    obtain ⟨c, hc, rfl⟩ := List.mem_map.1 hk
    exact lt_irrefl _ (habove c hc)

theorem writeAll_cons (m : Memory) (c : Host.Cell) (cells : List Host.Cell) :
    m.writeAll (c :: cells) = (m.write c.1 c.2).writeAll cells := rfl

theorem read_writeAll_of_not_mem (h : a ∉ cells.map Prod.fst) : (m.writeAll cells).read a = m.read a := by
  induction cells generalizing m with
  | nil => rfl
  | cons c cells ih =>
    obtain ⟨hne, hrest⟩ := not_or.1 (mt List.mem_cons.2 h)
    rw [writeAll_cons, ih hrest, read_write, if_neg hne]

/-- Of cells at different addresses, each stands where it was stored. -/
theorem read_writeAll_of_mem (hd : (cells.map Prod.fst).Nodup) (h : (a, v) ∈ cells) :
    (m.writeAll cells).read a = v := by
  induction cells generalizing m with
  | nil => cases h
  | cons c cells ih =>
    obtain ⟨hc, hd'⟩ := List.nodup_cons.1 hd
    rw [writeAll_cons]
    obtain rfl | h := List.mem_cons.1 h
    · rw [read_writeAll_of_not_mem hc, read_write, if_pos rfl]
    · exact ih hd' h

/-- Where nothing was listed, the stored memory reads as by itself. -/
theorem read_writeAll_of_unlisted (hd : (cells.map Prod.fst).Nodup) (h : m.read a = Memory.unlisted a) :
    (m.writeAll cells).read a = Memory.read cells a := by
  induction cells generalizing m with
  | nil => exact h
  | cons c cells ih =>
    obtain ⟨hc, hd'⟩ := List.nodup_cons.1 hd
    rw [writeAll_cons, Memory.read]
    split_ifs with hk
    · subst hk
      rw [read_writeAll_of_not_mem hc, read_write, if_pos rfl]
    · exact ih hd' (by rw [read_write, if_neg (Ne.symm hk), h])

end Sys2Proof.Machine
end

section
/-! The obligations about RESET and about what the environment does (70_reset; 60_exceptions R408; 20_memory R79). -/

namespace Sys2Proof.Machine

variable {c : Config} {m : Memory} {s : State} {a : Addr} {v : ResetValues}

/-! Which bytes RESET writes (70_reset R452, R454). -/

theorem not_ram_of_kept {k : Nat} (h : keptAtReset c k = true) : ramAtReset c k = false := by
  unfold keptAtReset at h
  unfold ramAtReset
  cases hr : regionAt c (BitVec.ofNat 16 k) with
  | none => simp_all
  | some r => simp_all

theorem lt_of_kept {k : Nat} (h : keptAtReset c k = true) : k < 0xFF00 := by
  simp only [keptAtReset, Bool.and_eq_true, decide_eq_true_eq] at h
  exact h.1.1

theorem lt_of_ram {k : Nat} (h : ramAtReset c k = true) : k < 0xFF00 := by
  simp only [ramAtReset, Bool.and_eq_true, decide_eq_true_eq] at h
  exact h.1

theorem mem_sfrResetCells {x : Host.Cell} :
    x ∈ sfrResetCells c ↔
      ∃ f ∈ c.sfrs, inSfrArea f.addr = true ∧ isControl f.addr = false ∧ (f.addr.toNat, f.resetValue) = x := by
  simp only [sfrResetCells, List.mem_map, List.mem_filter, Bool.and_eq_true, Bool.not_eq_true', and_assoc]

/-- The reset values of the SFRs leave every byte below the SFR area. -/
theorem read_sfrResetCells_of_lt {k : Nat} (h : k < 0xFF00) : (m.writeAll (sfrResetCells c)).read k = m.read k := by
  refine read_writeAll_of_not_mem fun hk => ?_
  obtain ⟨x, hx, rfl⟩ := List.mem_map.1 hk
  obtain ⟨f, -, harea, -, rfl⟩ := mem_sfrResetCells.1 hx
  exact absurd (inSfrArea_iff.1 harea) (Nat.not_le.2 h)

theorem read_memoryAtReset_of_ram {k : Nat} (hv : v.ram.wf = true) (h : ramAtReset c k = true) :
    (memoryAtReset c m v).read k = v.ram.read k := by
  have hkept : ¬keptAtReset c k = true := fun hk => by rw [not_ram_of_kept hk] at h; cases h
  rw [memoryAtReset, read_sfrResetCells_of_lt (lt_of_ram h),
    read_writeAll_of_unlisted (nodup_of_wf (wf_restrict _ hv)) (by rw [read_restrict, if_neg hkept]),
    read_restrict, if_pos h]

theorem read_memoryAtReset_of_kept {k : Nat} (h : keptAtReset c k = true) :
    (memoryAtReset c m v).read k = m.read k := by
  have hram : k ∉ (v.ram.restrict (ramAtReset c)).map Prod.fst := by
    intro hk
    obtain ⟨x, hx, rfl⟩ := List.mem_map.1 hk
    have hram := (List.mem_filter.1 hx).2
    rw [not_ram_of_kept h] at hram
    cases hram
  rw [memoryAtReset, read_sfrResetCells_of_lt (lt_of_kept h), read_writeAll_of_not_mem hram, read_restrict, if_pos h]

/-! The SFRs of a consistent product (20_memory R69). -/

theorem nodup_of_distinct {l : List Nat} (h : distinct l = true) : l.Nodup := by
  induction l with
  | nil => exact List.nodup_nil
  | cons k l ih =>
    simp only [distinct, Bool.and_eq_true, Bool.not_eq_true', List.contains_eq_mem, decide_eq_false_iff_not] at h
    exact List.nodup_cons.2 ⟨h.1, ih h.2⟩

/-- The SFRs of a consistent product lie in the SFR area, apart from PSW and SP, at different addresses. -/
theorem sfrs_of_ok (h : c.ok = true) :
    (∀ f ∈ c.sfrs, inSfrArea f.addr = true ∧ isControl f.addr = false) ∧
      (c.sfrs.map (fun f => f.addr.toNat)).Nodup := by
  simp only [Config.ok, Bool.and_eq_true] at h
  obtain ⟨⟨⟨⟨⟨⟨⟨-, hplaces⟩, hdistinct⟩, -⟩, -⟩, -⟩, -⟩, -⟩ := h
  refine ⟨fun f hf => ?_, nodup_of_distinct hdistinct⟩
  have hplace := List.all_eq_true.1 hplaces f hf
  simp only [Bool.and_eq_true, decide_eq_true_eq, Bool.not_eq_true', Bool.and_eq_false_iff,
    decide_eq_false_iff_not] at hplace
  refine ⟨inSfrArea_iff.2 hplace.1, Bool.eq_false_iff.2 fun hc => ?_⟩
  obtain ha | ha | ha := isControl_iff.1 hc <;> simp [ha] at hplace

theorem nodup_sfrResetCells (h : c.ok = true) : ((sfrResetCells c).map Prod.fst).Nodup := by
  obtain ⟨-, hnodup⟩ := sfrs_of_ok h
  rw [sfrResetCells, List.map_map]
  exact (List.filter_sublist.map _).nodup hnodup

/-! The state that RESET leaves (70_reset R452, R453). -/

/-- Outside PSW and SP, a byte after RESET is that of the memory RESET leaves. -/
theorem byteAt_resetInput (s : State) (v : ResetValues) (h : isControl a = false) :
    byteAt (s.resetInput v) a = (memoryAtReset s.cfg s.mem v).read a.toNat := by
  obtain ⟨hlow, hhigh, hpsw⟩ := isControl_ne h
  rw [byteAt, if_neg hpsw.symm, if_neg hlow.symm, if_neg hhigh.symm]
  rfl

theorem byteAt_of_lt (s : State) (h : a.toNat < 0xFF00) : byteAt s a = s.mem.read a.toNat := by
  obtain ⟨hpsw, hlow, hhigh⟩ := ne_control_of_le (Nat.le_of_lt_succ h)
  rw [byteAt, if_neg hpsw, if_neg hlow, if_neg hhigh]

theorem byteAt_resetInput_of_ram (s : State) (hv : v.ram.wf = true) (h : ramAtReset s.cfg a.toNat = true) :
    byteAt (s.resetInput v) a = v.ram.read a.toNat :=
  (byteAt_of_lt _ (lt_of_ram h)).trans (read_memoryAtReset_of_ram hv h)

theorem byteAt_resetInput_of_kept (h : keptAtReset s.cfg a.toNat = true) :
    byteAt (s.resetInput v) a = byteAt s a :=
  calc byteAt (s.resetInput v) a
    _ = s.mem.read a.toNat := (byteAt_of_lt _ (lt_of_kept h)).trans (read_memoryAtReset_of_kept h)
    _ = byteAt s a := (byteAt_of_lt s (lt_of_kept h)).symm

theorem byteAt_resetInput_of_sfr (v : ResetValues) (hok : s.cfg.ok = true) {f : Sfr} (hf : f ∈ s.cfg.sfrs) :
    byteAt (s.resetInput v) f.addr = f.resetValue := by
  obtain ⟨harea, hcontrol⟩ := (sfrs_of_ok hok).1 f hf
  rw [byteAt_resetInput s v hcontrol]
  exact read_writeAll_of_mem (nodup_sfrResetCells hok) (mem_sfrResetCells.2 ⟨f, hf, harea, hcontrol, rfl⟩)

theorem pc_resetInput (s : State) (v : ResetValues) : (s.resetInput v).pc = wordAt (s.resetInput v) 0x0000 := by
  rw [wordAt, byteAt_of_lt _ (by decide), byteAt_of_lt _ (by decide)]
  rfl

/-- Settles O49: the registers by definition, and the bytes by their part of the address space. -/
theorem resetInput : Obligations.ResetInput := by
  intro s v hok hv
  exact ⟨rfl, rfl, rfl, rfl, rfl, rfl, pc_resetInput s v, rfl, rfl, fun a => byteAt_resetInput_of_ram s hv,
    fun a => byteAt_resetInput_of_kept, fun f => byteAt_resetInput_of_sfr v hok⟩

/-! The invariant (20_memory R60; 10_state R34). -/

theorem memoryAddress_of_lt {k : Nat} (h : k < 0xFF00) : memoryAddress k = true := by
  simp only [memoryAddress, Bool.and_eq_true, decide_eq_true_eq, Bool.not_eq_true', Bool.and_eq_false_iff,
    decide_eq_false_iff_not]
  omega

theorem wf_memoryAtReset (v : ResetValues) (h : m.wf = true) : (memoryAtReset c m v).wf = true :=
  wf_writeAll _ (wf_writeAll _ (wf_restrict _ h))

theorem keysIn_memoryAtReset (c : Config) (m : Memory) (v : ResetValues) :
    (memoryAtReset c m v).keysIn memoryAddress = true := by
  refine keysIn_writeAll (fun x hx => ?_) (keysIn_writeAll (fun x hx => ?_)
    (keysIn_restrict fun k hk => memoryAddress_of_lt (lt_of_kept hk)))
  · obtain ⟨f, -, -, hcontrol, rfl⟩ := mem_sfrResetCells.1 hx
    obtain ⟨hlow, hhigh, hpsw⟩ := isControl_ne hcontrol
    exact memoryAddress_of_ne hpsw.symm hlow.symm hhigh.symm
  · exact memoryAddress_of_lt (lt_of_ram (List.mem_filter.1 hx).2)

theorem inv_resetInput (v : ResetValues) (h : StateInv s) : StateInv (s.resetInput v) := by
  obtain ⟨hwf, -, -⟩ := h
  have hpsw : bitOf 0x02 2 = false := by decide
  exact ⟨wf_memoryAtReset v hwf, keysIn_memoryAtReset s.cfg s.mem v, hpsw⟩

/-- A request is a flag of its SFR, or a pending bit, which no part of the invariant reads. -/
theorem inv_request (k : Nat) (h : StateInv s) : StateInv (s.request k) := by
  unfold State.request
  split
  · exact h
  · split
    · exact h
    · exact inv_putByte _ _ h

theorem inv_peripheral (a : Addr) (v : Byte) (h : StateInv s) : StateInv (s.peripheral a v) := by
  unfold State.peripheral
  split_ifs
  · exact h
  · exact inv_putByte a v h
  · exact h

/-- Settles O54, from what each of the three inputs keeps. -/
theorem environmentKeepsInvariant : Obligations.EnvironmentKeepsInvariant := by
  intro s h
  exact ⟨fun k => inv_request k h, fun a v => inv_peripheral a v h, fun v => inv_resetInput v h⟩

end Sys2Proof.Machine
end
